-- ==== Sys2Proof/Word.lean ====
section
/-! DEFINITION. The machine's value types (00_scope.md R6, R8; 42_round_transforms.md R160). -/

namespace Sys2Proof

/-- `u8`: an 8-bit unsigned byte, an element of GF(2^8) (R8, R120). -/
abbrev Byte := BitVec 8

/-- `u32`: a 32-bit unsigned word packing 4 bytes, byte 0 in the low-order position (R8, R70). -/
abbrev Word := BitVec 32

/-- 4 words: a block, a key, a cipher state or a round-key group (R6, R160). -/
abbrev Block := Vector Word 4

/-- The 44 words of a round-key schedule (R6, R28). -/
abbrev KeySchedule := Vector Word 44

/-- One accelerator table of 256 words (R6, R29). -/
abbrev Table := Vector Word 256

/-- A byte offset in the 8 KiB host register window (R60). -/
abbrev Offset := BitVec 13

end Sys2Proof
end

