-- ==== Sys2Proof/Syntax.lean ====
section
/-! DEFINITION. The 17 engine commands, one constructor per row of the opcode table
(30_encoding.md R95). -/

namespace Sys2Proof

/-- An engine command with its operands: `arg` is the byte operand ARG (R92), `n` the round number RND,
0..15 as the field holds it (R93); every other operand is implicit (R99). -/
inductive Instr where
  | nop
  | loadBlock
  | storeBlock
  | expandKey
  | addRoundKey (n : BitVec 4)
  | subBytes
  | shiftRows
  | mixColumns
  | round (n : BitVec 4)
  | finalRound
  | encrypt
  | xtime (arg : Byte)
  | sbox (arg : Byte)
  | genTables
  | tRound (n : BitVec 4)
  | encryptT
  | clrErr
  deriving DecidableEq, Repr

end Sys2Proof
end

