-- ==== Sys2Proof/WellFormed.lean ====
section
/-! DEFINITION. Which commands are well formed: the round-number ranges (30_encoding.md R93, R98). -/

namespace Sys2Proof

/-- The round number is in the command's legal range: 0..10 for ADD_ROUND_KEY, 1..9 for ROUND and
T_ROUND. Commands without a round number are always well formed (R93). -/
def Instr.wf : Instr → Bool
  | .nop => true
  | .loadBlock => true
  | .storeBlock => true
  | .expandKey => true
  | .addRoundKey n => n ≤ 10
  | .subBytes => true
  | .shiftRows => true
  | .mixColumns => true
  | .round n => 1 ≤ n ∧ n ≤ 9
  | .finalRound => true
  | .encrypt => true
  | .xtime _ => true
  | .sbox _ => true
  | .genTables => true
  | .tRound n => 1 ≤ n ∧ n ≤ 9
  | .encryptT => true
  | .clrErr => true

end Sys2Proof
end

