-- ==== Sys2Proof/Decode.lean ====
section
/-! DEFINITION. Decoding a command word, total on every word and rejecting by name, and the encoder
(30_encoding.md R90-R103). -/

namespace Sys2Proof

/-- Why a command word selects no row of the opcode table (R100). -/
inductive DecodeError where
  /-- OPC in 0x11..0xFF (R91). -/
  | illegalOpc
  /-- Non-zero RSV, or non-zero ARG or RND that the opcode does not use (R94). -/
  | reserved
  deriving DecidableEq, Repr

/-- OPC = v[7:0] (R90). -/
def opcField (v : Word) : Byte := v.extractLsb' 0 8

/-- ARG = v[15:8] (R90). -/
def argField (v : Word) : Byte := v.extractLsb' 8 8

/-- RND = v[19:16] (R90). -/
def rndField (v : Word) : BitVec 4 := v.extractLsb' 16 4

/-- RSV = v[31:20] (R90). -/
def rsvField (v : Word) : BitVec 12 := v.extractLsb' 20 12

/-- The opcode map: the command that an opcode and its operand fields name (R95). -/
def instrOfOpcode (opc : Nat) (arg : Byte) (rnd : BitVec 4) : Option Instr :=
  match opc with
  | 0x00 => some .nop
  | 0x01 => some .loadBlock
  | 0x02 => some .storeBlock
  | 0x03 => some .expandKey
  | 0x04 => some (.addRoundKey rnd)
  | 0x05 => some .subBytes
  | 0x06 => some .shiftRows
  | 0x07 => some .mixColumns
  | 0x08 => some (.round rnd)
  | 0x09 => some .finalRound
  | 0x0A => some .encrypt
  | 0x0B => some (.xtime arg)
  | 0x0C => some (.sbox arg)
  | 0x0D => some .genTables
  | 0x0E => some (.tRound rnd)
  | 0x0F => some .encryptT
  | 0x10 => some .clrErr
  | _ => none

/-- The opcode uses the ARG field: XTIME and SBOX (R90, R95). -/
def usesArg (opc : Byte) : Bool := opc = 0x0B ∨ opc = 0x0C

/-- The opcode uses the RND field: ADD_ROUND_KEY, ROUND and T_ROUND (R90, R95). -/
def usesRnd (opc : Byte) : Bool := opc = 0x04 ∨ opc = 0x08 ∨ opc = 0x0E

/-- A field of the word that must be 0 is not: RSV, or ARG or RND where the opcode does not use it (R94). -/
def reservedNonzero (v : Word) : Bool :=
  rsvField v ≠ 0 ∨ (argField v ≠ 0 ∧ ¬ usesArg (opcField v)) ∨ (rndField v ≠ 0 ∧ ¬ usesRnd (opcField v))

/-- The command a word encodes. Decoding ends where the word selects a row of the opcode table (R101);
the range and state checks of R98 come after it. -/
def decode (v : Word) : Except DecodeError Instr :=
  match instrOfOpcode (opcField v).toNat (argField v) (rndField v) with
  | none => .error .illegalOpc
  | some i => if reservedNonzero v then .error .reserved else .ok i

/-- The decoder on the bytes of a command word as they travel on the bus, byte lane 0 first (R72); fewer
than 4 bytes are no command word. The bytes after the fourth are given back. -/
def decodeBytes : List Byte → Option (Except DecodeError Instr × List Byte)
  | b0 :: b1 :: b2 :: b3 :: rest => some (decode (b3 ++ b2 ++ b1 ++ b0), rest)
  | _ => none

/-- A table row's bits as one command word: every bit from `nbits` up is 0. -/
def tableWord (nbits w : Nat) : Word := BitVec.ofNat 32 (w % 2 ^ nbits)

/-- The command the decoder reads from an instruction whose bits are `w`, bit 0 the least significant bit
of the one 32-bit word every command is (R102). -/
def decodeTableWord (nbits w : Nat) : Option Instr :=
  match decode (tableWord nbits w) with
  | .ok i => some i
  | .error _ => none

/-! ### The encoder -/

/-- The opcode of a command (R95). -/
def Instr.opcode : Instr → Byte
  | .nop => 0x00
  | .loadBlock => 0x01
  | .storeBlock => 0x02
  | .expandKey => 0x03
  | .addRoundKey _ => 0x04
  | .subBytes => 0x05
  | .shiftRows => 0x06
  | .mixColumns => 0x07
  | .round _ => 0x08
  | .finalRound => 0x09
  | .encrypt => 0x0A
  | .xtime _ => 0x0B
  | .sbox _ => 0x0C
  | .genTables => 0x0D
  | .tRound _ => 0x0E
  | .encryptT => 0x0F
  | .clrErr => 0x10

/-- The byte operand of a command, 0 where it has none (R103). -/
def Instr.argOperand : Instr → Byte
  | .nop => 0
  | .loadBlock => 0
  | .storeBlock => 0
  | .expandKey => 0
  | .addRoundKey _ => 0
  | .subBytes => 0
  | .shiftRows => 0
  | .mixColumns => 0
  | .round _ => 0
  | .finalRound => 0
  | .encrypt => 0
  | .xtime b => b
  | .sbox b => b
  | .genTables => 0
  | .tRound _ => 0
  | .encryptT => 0
  | .clrErr => 0

/-- The round number of a command, 0 where it has none (R103). -/
def Instr.rndOperand : Instr → BitVec 4
  | .nop => 0
  | .loadBlock => 0
  | .storeBlock => 0
  | .expandKey => 0
  | .addRoundKey n => n
  | .subBytes => 0
  | .shiftRows => 0
  | .mixColumns => 0
  | .round n => n
  | .finalRound => 0
  | .encrypt => 0
  | .xtime _ => 0
  | .sbox _ => 0
  | .genTables => 0
  | .tRound n => n
  | .encryptT => 0
  | .clrErr => 0

/-- The command word: zext(OPC) | zext(b) << 8 | zext(n) << 16 (R103). -/
def encode (i : Instr) : Word :=
  i.opcode.setWidth 32 ||| (i.argOperand.setWidth 32 <<< 8) ||| (i.rndOperand.setWidth 32 <<< 16)

/-- The assembler: it refuses an out-of-range round number (R103); an operand that does not fit its field
cannot be written as an `Instr`. -/
def assemble (i : Instr) : Option Word :=
  if i.wf then some (encode i) else none

/-- The mnemonic of a command, as the opcode table spells it (R95). -/
def Instr.mnemonic : Instr → String
  | .nop => "NOP"
  | .loadBlock => "LOAD_BLOCK"
  | .storeBlock => "STORE_BLOCK"
  | .expandKey => "EXPAND_KEY"
  | .addRoundKey _ => "ADD_ROUND_KEY"
  | .subBytes => "SUB_BYTES"
  | .shiftRows => "SHIFT_ROWS"
  | .mixColumns => "MIX_COLUMNS"
  | .round _ => "ROUND"
  | .finalRound => "FINAL_ROUND"
  | .encrypt => "ENCRYPT"
  | .xtime _ => "XTIME"
  | .sbox _ => "SBOX"
  | .genTables => "GEN_TABLES"
  | .tRound _ => "T_ROUND"
  | .encryptT => "ENCRYPT_T"
  | .clrErr => "CLR_ERR"

/-- One row of the match-and-mask table (R101). -/
structure OpcodeRow where
  mnemonic : String
  pattern : Word
  mask : Word
  deriving DecidableEq, Repr

/-- The match-and-mask table, row for row (R101). -/
def opcodeTable : List OpcodeRow := [
  ⟨"NOP", 0x00000000, 0xFFFFFFFF⟩,
  ⟨"LOAD_BLOCK", 0x00000001, 0xFFFFFFFF⟩,
  ⟨"STORE_BLOCK", 0x00000002, 0xFFFFFFFF⟩,
  ⟨"EXPAND_KEY", 0x00000003, 0xFFFFFFFF⟩,
  ⟨"ADD_ROUND_KEY", 0x00000004, 0xFFF0FFFF⟩,
  ⟨"SUB_BYTES", 0x00000005, 0xFFFFFFFF⟩,
  ⟨"SHIFT_ROWS", 0x00000006, 0xFFFFFFFF⟩,
  ⟨"MIX_COLUMNS", 0x00000007, 0xFFFFFFFF⟩,
  ⟨"ROUND", 0x00000008, 0xFFF0FFFF⟩,
  ⟨"FINAL_ROUND", 0x00000009, 0xFFFFFFFF⟩,
  ⟨"ENCRYPT", 0x0000000A, 0xFFFFFFFF⟩,
  ⟨"XTIME", 0x0000000B, 0xFFFF00FF⟩,
  ⟨"SBOX", 0x0000000C, 0xFFFF00FF⟩,
  ⟨"GEN_TABLES", 0x0000000D, 0xFFFFFFFF⟩,
  ⟨"T_ROUND", 0x0000000E, 0xFFF0FFFF⟩,
  ⟨"ENCRYPT_T", 0x0000000F, 0xFFFFFFFF⟩,
  ⟨"CLR_ERR", 0x00000010, 0xFFFFFFFF⟩]

end Sys2Proof
end

