-- ==== Sys2Proof/Config.lean ====
section
/-! DEFINITION. What an implementation fixes, and the values the spec leaves free (00_scope.md R7;
93_implementation_defined.md). -/

namespace Sys2Proof

/-- `HAS_TABLES`: 1 for this hardware (R7). It stands in `State.capTables`, so that the rules for
`HAS_TABLES = 0` (R228) are modelled too. DESIGN CHOICE, safe (log 8). -/
def Config.hasTables : Bool := true

/-- The upper 19 bits of `ENGINE_BASE`, an open parameter (R7, R61, U6). DESIGN CHOICE, safe (log 7). -/
opaque Config.enginePage : BitVec 19

/-- `CMD_LATENCY(op)`, an open parameter no rule depends on (R7, R289, U5). The step function does not
read it; `Safety.lean` says which schedules it allows. DESIGN CHOICE, safe (log 6). -/
opaque Config.cmdLatency : Byte → Nat

/-- The unspecified contents of `RK[i]` after the `k`-th reset, as `rkDraw k i`: any value (R281, U1).
DESIGN CHOICE, safe (log 1). -/
opaque Config.rkDraw : Nat → Nat → Word

/-- The unspecified contents of `Tt[i]` after the `k`-th reset, as `tableDraw k t i`: any value (R281, U2).
DESIGN CHOICE, safe (log 1). -/
opaque Config.tableDraw : Nat → Nat → Nat → Word

/-- The round-constant ROM's entries that no rule reads, 0 and 11: any value (R31, U4).
DESIGN CHOICE, safe (log 13). -/
opaque Config.rconUnused : Nat → Byte

end Sys2Proof
end

