-- ==== Sys2Proof/Machine/State.lean ====
section
/-! DEFINITION. The machine's state as plain data, the reasons a step can stop, and the state after reset
(10_state.md; 70_reset_and_hazards.md R280, R281, R292). -/

namespace Sys2Proof.Machine

/-- The error codes the engine produces, as STATUS.ERR holds them (60_exceptions.md R251). Codes 9..15 are
never produced, so they have no constructor. -/
inductive ErrCode where
  /-- 0: no error since the last clear. -/
  | none
  /-- 1: a command word with OPC in 0x11..0xFF. -/
  | illegalOpc
  /-- 2: a table command while HAS_TABLES = 0. -/
  | unsupported
  /-- 3: a non-zero field that must be 0. -/
  | reserved
  /-- 4: a round number out of range. -/
  | badRound
  /-- 5: T_ROUND or ENCRYPT_T while TABLES_VALID = 0. -/
  | noTables
  /-- 6: a command that reads RK while SCHED_VALID = 0. -/
  | noSched
  /-- 7: a host write to CMD, KEY or DIN while BUSY = 1. -/
  | busy
  /-- 8: an access that is not 32-bit aligned, or a write to a read-only or unmapped offset. -/
  | badAccess
  deriving DecidableEq, Repr

/-- One atomic step of the whole machine (70_reset_and_hazards.md R292). -/
inductive Action where
  /-- `HostRead(off, n)`: a read of `n` bytes at window offset `off`. -/
  | hostRead (off : Offset) (n : Nat)
  /-- `HostWrite(off, n, v)`: a write of `n` bytes; only `n = 4` moves `v`, any other write is dropped
  (R63; log 20). -/
  | hostWrite (off : Offset) (n : Nat) (v : Word)
  /-- `Complete()`: the sequencer's completion step. -/
  | complete
  /-- `Reset()`: the reset input. -/
  | reset
  deriving DecidableEq, Repr

/-- Why a step faults: never. The spec has no behaviour that stops the engine (93_implementation_defined.md
part 1; 60_exceptions.md R250), so there is no constructor. DEDUCED, safe (log 11). -/
inductive Fault : Type
  deriving DecidableEq, Repr

/-- Why an instruction has no meaning. -/
inductive Refusal where
  /-- Raised by a refused arm of `exec` for a command without a meaning (safe); no arm raises it. -/
  | notModelled (mnemonic : String)
  deriving DecidableEq, Repr

/-- The whole state: the registers of 10_state.md R20, the pending command of R41, and three fields of the
model's own that say what happens next and what the host has seen. -/
structure State where
  /-- KEY[0..3], the cipher key (R22). -/
  key : Block
  /-- DIN[0..3], the input block (R23). -/
  din : Block
  /-- DOUT[0..3], the output block (R24). -/
  dout : Block
  /-- STATE[0..3], the cipher state (R25). -/
  state : Block
  /-- RESULT (R26); bits 31:8 read as 0 whatever stands here (R33; log 18). -/
  result : Word
  /-- CMD, the last command word stored (R27). -/
  cmd : Word
  /-- The accepted command word awaiting completion. STATUS.BUSY is 1 exactly while there is one
  (R41; log 9). -/
  pending : Option Word
  /-- RK[0..43], the round-key schedule (R28). -/
  rk : KeySchedule
  /-- T0[0..255] (R29). -/
  t0 : Table
  /-- T1[0..255] (R29). -/
  t1 : Table
  /-- T2[0..255] (R29). -/
  t2 : Table
  /-- T3[0..255] (R29). -/
  t3 : Table
  /-- STATUS.SCHED_VALID (R35). -/
  schedValid : Bool
  /-- STATUS.TABLES_VALID (R36); reads 0 while HAS_TABLES = 0 whatever stands here (log 17). -/
  tablesValid : Bool
  /-- STATUS.DONE (R37). -/
  done : Bool
  /-- STATUS.ERR_OVF (R38). -/
  errOvf : Bool
  /-- STATUS.ERR (R38). -/
  err : ErrCode
  /-- STATUS.CAP_TABLES, hardwired to HAS_TABLES; no step writes it (R39; log 8). -/
  capTables : Bool
  /-- The model's own: the actions still to happen, first one first (R292; log 3). -/
  actions : List Action
  /-- The model's own: the values the host's reads returned, newest first (R293; log 14). -/
  returned : List Word
  /-- The model's own: how many resets have been taken, the index of R281's draw (log 2). -/
  resets : Nat
  deriving DecidableEq, Repr

/-- The draw of RK's unspecified contents after the `k`-th reset (R281; log 1). -/
def rkAfterReset (k : Nat) : KeySchedule := Vector.ofFn fun i => Config.rkDraw k i.val

/-- The draw of table `t`'s unspecified contents after the `k`-th reset (R281; log 1). -/
def tableAfterReset (k t : Nat) : Table := Vector.ofFn fun i => Config.tableDraw k t i.val

/-- The machine right after reset (R280, R281), with no action to come and nothing read yet. -/
def State.reset : State where
  key := Vector.replicate 4 0
  din := Vector.replicate 4 0
  dout := Vector.replicate 4 0
  state := Vector.replicate 4 0
  result := 0
  cmd := 0
  pending := none
  rk := rkAfterReset 0
  t0 := tableAfterReset 0 0
  t1 := tableAfterReset 0 1
  t2 := tableAfterReset 0 2
  t3 := tableAfterReset 0 3
  schedValid := false
  tablesValid := false
  done := false
  errOvf := false
  err := .none
  capTables := Config.hasTables
  actions := []
  returned := []
  resets := 0

end Sys2Proof.Machine
end

