-- ==== Sys2Proof/Machine/Ops.lean ====
section
/-! DEFINITION. The bit-field helpers, and the shared operations on the state: recording an error (the
engine's only exception), turning a command away, clearing the error report, accepting and finishing a
command (00_scope.md R8, R11, R12; 30_encoding.md R96, R97; 60_exceptions.md R253-R258). -/

namespace Sys2Proof.Machine

/-- `byte(w, r) = w[8r+7 : 8r]` (R12). -/
def byte (w : Word) (r : Nat) : Byte := w.extractLsb' (8 * r) 8

/-- `pack(b0, b1, b2, b3)`, `b0` in bits 7:0 (R12). -/
def pack (b0 b1 b2 b3 : Byte) : Word := b3 ++ b2 ++ b1 ++ b0

/-- `zext_32(b)` (R8). -/
def zext32 (b : Byte) : Word := b.setWidth 32

/-- ID always reads the ASCII bytes "AES1", 'A' in bits 31:24 (R34). -/
def idWord : Word := 0x41455331

/-- Recording an error: the first one is kept, later ones set the overflow bit (R253). This is all an error
does to STATUS.ERR and ERR_OVF; there is no trap entry and no return (R250, R260). -/
def State.recordError (code : ErrCode) (s : State) : State :=
  if s.err = .none then { s with err := code } else { s with errOvf := true }

/-- What a command word that Check rejects does besides the store to CMD: DONE is set at once and the code
recorded (R96, R257). -/
def State.rejectCommand (code : ErrCode) (s : State) : State :=
  State.recordError code { s with done := true }

/-- The error report cleared (R198, R258). -/
def State.clearErrors (s : State) : State :=
  { s with err := .none, errOvf := false }

/-- What an accepted command word does besides the store to CMD (R96). -/
def State.acceptCommand (v : Word) (s : State) : State :=
  { s with pending := some v, done := false }

/-- The end of the completion step: BUSY 0 and nothing pending, DONE 1 (R97). -/
def State.finishCommand (s : State) : State :=
  { s with pending := none, done := true }

/-- `KEY[j] <- v`, which makes the schedule stale (R22, R65). -/
def State.writeKey (j : Fin 4) (v : Word) (s : State) : State :=
  { s with key := s.key.set j v, schedValid := false }

/-- `DIN[c] <- v` (R23, R65). -/
def State.writeDin (c : Fin 4) (v : Word) (s : State) : State :=
  { s with din := s.din.set c v }

/-- The reset input (R280, R281). The host's coming actions and what its reads returned are not the
engine's; the constants and CAP_TABLES are unchanged; RK and T0..T3 take a new draw. -/
def State.resetEngine (s : State) : State where
  key := Vector.replicate 4 0
  din := Vector.replicate 4 0
  dout := Vector.replicate 4 0
  state := Vector.replicate 4 0
  result := 0
  cmd := 0
  pending := none
  rk := rkAfterReset (s.resets + 1)
  t0 := tableAfterReset (s.resets + 1) 0
  t1 := tableAfterReset (s.resets + 1) 1
  t2 := tableAfterReset (s.resets + 1) 2
  t3 := tableAfterReset (s.resets + 1) 3
  schedValid := false
  tablesValid := false
  done := false
  errOvf := false
  err := .none
  capTables := s.capTables
  actions := s.actions
  returned := s.returned
  resets := s.resets + 1

end Sys2Proof.Machine
end

