-- ==== Sys2Proof/Machine/Flags.lean ====
section
/-! DEFINITION. STATUS and its fields, and the checks a command must pass (10_state.md R32-R40;
30_encoding.md R98; 60_exceptions.md R251, R254). -/

namespace Sys2Proof.Machine

/-- STATUS.BUSY: a command is pending (R40, R41; log 9). -/
def State.busy (s : State) : Bool := s.pending.isSome

/-- STATUS.TABLES_VALID, hardwired to 0 while HAS_TABLES = 0 (R36; log 17). -/
def State.tablesReady (s : State) : Bool := s.capTables && s.tablesValid

/-- The code of an error, as STATUS.ERR holds it (R251). -/
def ErrCode.code : ErrCode → BitVec 4
  | .none => 0
  | .illegalOpc => 1
  | .unsupported => 2
  | .reserved => 3
  | .badRound => 4
  | .noTables => 5
  | .noSched => 6
  | .busy => 7
  | .badAccess => 8

/-- A one-bit field. -/
def bit (b : Bool) : BitVec 1 := BitVec.ofBool b

/-- STATUS, field by field from bit 31 down; the reserved bits are hardwired to 0 (R32, R33). -/
def State.statusRead (s : State) : Word :=
  (0 : BitVec 15) ++ bit s.capTables ++ (0 : BitVec 4) ++ s.err.code ++ (0 : BitVec 3) ++ bit s.errOvf
    ++ bit s.done ++ bit s.tablesReady ++ bit s.schedValid ++ bit s.busy

/-- RESULT as it reads: bits 31:8 are hardwired to 0 (R26, R33; log 18). -/
def State.resultRead (s : State) : Word := zext32 (byte s.result 0)

/-- The command needs the table accelerator (R95). -/
def needsAccel : Instr → Bool
  | .nop => false
  | .loadBlock => false
  | .storeBlock => false
  | .expandKey => false
  | .addRoundKey _ => false
  | .subBytes => false
  | .shiftRows => false
  | .mixColumns => false
  | .round _ => false
  | .finalRound => false
  | .encrypt => false
  | .xtime _ => false
  | .sbox _ => false
  | .genTables => true
  | .tRound _ => true
  | .encryptT => true
  | .clrErr => false

/-- The command needs TABLES_VALID (R95). -/
def needsTables : Instr → Bool
  | .nop => false
  | .loadBlock => false
  | .storeBlock => false
  | .expandKey => false
  | .addRoundKey _ => false
  | .subBytes => false
  | .shiftRows => false
  | .mixColumns => false
  | .round _ => false
  | .finalRound => false
  | .encrypt => false
  | .xtime _ => false
  | .sbox _ => false
  | .genTables => false
  | .tRound _ => true
  | .encryptT => true
  | .clrErr => false

/-- The command needs SCHED_VALID (R95). -/
def needsSched : Instr → Bool
  | .nop => false
  | .loadBlock => false
  | .storeBlock => false
  | .expandKey => false
  | .addRoundKey _ => true
  | .subBytes => false
  | .shiftRows => false
  | .mixColumns => false
  | .round _ => true
  | .finalRound => true
  | .encrypt => false
  | .xtime _ => false
  | .sbox _ => false
  | .genTables => false
  | .tRound _ => true
  | .encryptT => false
  | .clrErr => false

/-- The checks a decoded command must still pass, in order: the accelerator, the round number, the tables,
the schedule (R98, R101). -/
def checkInstr (i : Instr) (s : State) : ErrCode :=
  if needsAccel i ∧ ¬ s.capTables then .unsupported
  else if ¬ i.wf then .badRound
  else if needsTables i ∧ ¬ s.tablesReady then .noTables
  else if needsSched i ∧ ¬ s.schedValid then .noSched
  else .none

/-- `Check(v)`, on the fields of the word, in the spec's order (R98). -/
def check (v : Word) (s : State) : ErrCode :=
  let op := (opcField v).toNat
  let arg := argField v
  let rnd := (rndField v).toNat
  let rsv := rsvField v
  if op > 0x10 then .illegalOpc
  else if op ∈ [0x0D, 0x0E, 0x0F] ∧ ¬ s.capTables then .unsupported
  else if rsv ≠ 0 then .reserved
  else if arg ≠ 0 ∧ op ∉ [0x0B, 0x0C] then .reserved
  else if rnd ≠ 0 ∧ op ∉ [0x04, 0x08, 0x0E] then .reserved
  else if op = 0x04 ∧ rnd > 10 then .badRound
  else if op ∈ [0x08, 0x0E] ∧ (rnd = 0 ∨ rnd > 9) then .badRound
  else if op ∈ [0x0E, 0x0F] ∧ ¬ s.tablesReady then .noTables
  else if op ∈ [0x04, 0x08, 0x09, 0x0E] ∧ ¬ s.schedValid then .noSched
  else .none

/-- A command performed under its own checks: its effect where they pass, the rejection where one fails.
In every reachable state a pending command has passed them already, so the effect is taken (R97; log 10). -/
def performChecked (i : Instr) (s : State) (effect : State) : Host.Outcome State Fault Refusal :=
  match checkInstr i s with
  | .none => .next effect
  | code => .next (s.rejectCommand code)

end Sys2Proof.Machine
end

