-- ==== Sys2Proof/Machine/Operands.lean ====
section
/-! DEFINITION. The operands: the implicit round-key group of a command, and the register-window offset of
a host access (20_memory.md R60-R72; 30_encoding.md R99). -/

namespace Sys2Proof.Machine

/-- A round number as a round-key group 0..10; every round number a check lets through is one (R93, R98). -/
def roundGroup (n : BitVec 4) : Fin 11 := Fin.ofNat 11 n.toNat

/-- Round-key group `n` of a schedule: the words `4n + c` (R28, R99). -/
def roundKey (w : KeySchedule) (n : Fin 11) : Block :=
  Vector.ofFn fun c : Fin 4 => w[4 * n.val + c.val]

/-- What a window offset names (R62). -/
inductive Target where
  | cmd
  | status
  | result
  | id
  | key (j : Fin 4)
  | din (c : Fin 4)
  | dout (c : Fin 4)
  | state (c : Fin 4)
  | rk (k : Fin 44)
  | sbox (i : Fin 256)
  | table (t : Fin 4) (i : Fin 256)
  | unmapped
  deriving DecidableEq, Repr

/-- The register map of the word that holds an offset; the T windows exist only when HAS_TABLES = 1 (R62). -/
def windowTarget (capTables : Bool) (off : Offset) : Target :=
  let o := off.toNat
  if o < 0x0004 then .cmd
  else if o < 0x0008 then .status
  else if o < 0x000C then .result
  else if o < 0x0010 then .id
  else if o < 0x0020 then .key (Fin.ofNat 4 ((o - 0x0010) / 4))
  else if o < 0x0030 then .din (Fin.ofNat 4 ((o - 0x0020) / 4))
  else if o < 0x0040 then .dout (Fin.ofNat 4 ((o - 0x0030) / 4))
  else if o < 0x0050 then .state (Fin.ofNat 4 ((o - 0x0040) / 4))
  else if o < 0x0100 then .unmapped
  else if o < 0x01B0 then .rk (Fin.ofNat 44 ((o - 0x0100) / 4))
  else if o < 0x0400 then .unmapped
  else if o < 0x0800 then .sbox (Fin.ofNat 256 ((o - 0x0400) / 4))
  else if o < 0x1000 then .unmapped
  else if capTables then .table (Fin.ofNat 4 ((o - 0x1000) / 0x400)) (Fin.ofNat 256 ((o - 0x1000) % 0x400 / 4))
  else .unmapped

/-- A legal access: 32 bits wide at a 4-byte-aligned offset (R63). -/
def legalAccess (off : Offset) (n : Nat) : Bool := n = 4 ∧ off.toNat % 4 = 0

/-- Table `t`, entry `i` (R29). -/
def State.tableEntry (s : State) (t : Fin 4) (i : Fin 256) : Word :=
  match t with
  | 0 => s.t0[i]
  | 1 => s.t1[i]
  | 2 => s.t2[i]
  | 3 => s.t3[i]

end Sys2Proof.Machine
end

