-- ==== Sys2Proof/Machine/KeyExpansion.lean ====
section
/-! DEFINITION. The key schedule and the command EXPAND_KEY (41_key_schedule.md). -/

namespace Sys2Proof.Machine

/-- Round-key group `i` from group `i - 1` and `RCON[i]`: the body of R140's loop (R142). -/
def nextGroup (rc : Byte) (g : Block) : Block :=
  let t := subWord (rotWord g[3]) ^^^ zext32 rc
  let w0 := g[0] ^^^ t
  let w1 := w0 ^^^ g[1]
  let w2 := w1 ^^^ g[2]
  let w3 := w2 ^^^ g[3]
  #v[w0, w1, w2, w3]

/-- Round-key group `i` of a key; group 0 is the key (R140). -/
def keyGroup (k : Block) : Nat → Block
  | 0 => k
  | i + 1 => nextGroup (rcon (i + 1)) (keyGroup k i)

/-- `KeyExpansion(K)`: word `4i + j` is word `j` of group `i` (R140). -/
def keyExpansion (k : Block) : KeySchedule :=
  Vector.ofFn fun m : Fin 44 => (keyGroup k (m.val / 4))[m.val % 4]

/-- EXPAND_KEY: `RK <- KeyExpansion(KEY)`, SCHED_VALID <- 1 (R143). -/
def execExpandKey (s : State) : Host.Outcome State Fault Refusal :=
  .next { s with rk := keyExpansion s.key, schedValid := true }

end Sys2Proof.Machine
end

