-- ==== Sys2Proof/Machine/RoundTransforms.lean ====
section
/-! DEFINITION. The four round transforms on a 4-word state and the commands that apply them to STATE
(42_round_transforms.md). -/

namespace Sys2Proof.Machine

/-- `SubBytes(S)[c] = SubWord(S[c])` (R161). -/
def subBytes (S : Block) : Block := Vector.ofFn fun c : Fin 4 => subWord S[c]

/-- Row `r` shifted left by `r` column positions, column indices mod 4 (R160, R162). -/
def shiftRows (S : Block) : Block :=
  Vector.ofFn fun c : Fin 4 => pack (byte S[c] 0) (byte S[c + 1] 1) (byte S[c + 2] 2) (byte S[c + 3] 3)

/-- Byte `r` of MixColumn, from the column's bytes from row `r` down (R164). -/
def mixByte (a b c d : Byte) : Byte := xtime a ^^^ mul3 b ^^^ c ^^^ d

/-- `MixColumn(w)` (R164). -/
def mixColumn (w : Word) : Word :=
  let a0 := byte w 0
  let a1 := byte w 1
  let a2 := byte w 2
  let a3 := byte w 3
  pack (mixByte a0 a1 a2 a3) (mixByte a1 a2 a3 a0) (mixByte a2 a3 a0 a1) (mixByte a3 a0 a1 a2)

/-- `MixColumns(S)[c] = MixColumn(S[c])` (R165). -/
def mixColumns (S : Block) : Block := Vector.ofFn fun c : Fin 4 => mixColumn S[c]

/-- AddRoundKey with a schedule `W`: `S[c] ^ W[4n + c]` (R166, R190). -/
def addRoundKey (W : KeySchedule) (S : Block) (n : Fin 11) : Block :=
  Vector.ofFn fun c : Fin 4 => S[c] ^^^ (roundKey W n)[c]

/-- SUB_BYTES: `STATE <- SubBytes(STATE)` (R167). -/
def execSubBytes (s : State) : Host.Outcome State Fault Refusal :=
  .next { s with state := subBytes s.state }

/-- SHIFT_ROWS: `STATE <- ShiftRows(STATE)` (R168). -/
def execShiftRows (s : State) : Host.Outcome State Fault Refusal :=
  .next { s with state := shiftRows s.state }

/-- MIX_COLUMNS: `STATE <- MixColumns(STATE)` (R169). -/
def execMixColumns (s : State) : Host.Outcome State Fault Refusal :=
  .next { s with state := mixColumns s.state }

/-- ADD_ROUND_KEY n: `STATE <- AddRoundKey(STATE, n)`; BAD_ROUND and NO_SCHED (R170). -/
def execAddRoundKey (n : BitVec 4) (s : State) : Host.Outcome State Fault Refusal :=
  performChecked (.addRoundKey n) s { s with state := addRoundKey s.rk s.state (roundGroup n) }

end Sys2Proof.Machine
end

