-- ==== Sys2Proof/Machine/CipherControl.lean ====
section
/-! DEFINITION. The cipher and the control commands (43_cipher_control.md). -/

namespace Sys2Proof.Machine

/-- One middle round: SubBytes, ShiftRows, MixColumns, AddRoundKey n (R190 step 4, R195). -/
def middleRound (W : KeySchedule) (S : Block) (n : Fin 11) : Block :=
  addRoundKey W (mixColumns (shiftRows (subBytes S))) n

/-- The final round, without MixColumns and with group 10 (R190 step 5, R196). -/
def lastRound (W : KeySchedule) (S : Block) : Block :=
  addRoundKey W (shiftRows (subBytes S)) 10

/-- The middle rounds in order, 1..9 (R190 step 4). -/
def middleRounds : List (Fin 11) := [1, 2, 3, 4, 5, 6, 7, 8, 9]

/-- The block's way through the rounds with a given middle round (R190 steps 3-5, R227). -/
def cipherRounds (mid : Block → Fin 11 → Block) (W : KeySchedule) (P : Block) : Block :=
  lastRound W (middleRounds.foldl mid (addRoundKey W P 0))

/-- `Cipher(K, P)`: the output block and the schedule it used (R190). -/
def cipher (K P : Block) : Block × KeySchedule :=
  (cipherRounds (middleRound (keyExpansion K)) (keyExpansion K) P, keyExpansion K)

/-- NOP: no register is written (R192). -/
def execNop (s : State) : Host.Outcome State Fault Refusal := .next s

/-- LOAD_BLOCK: `STATE[c] <- DIN[c]` (R193). -/
def execLoadBlock (s : State) : Host.Outcome State Fault Refusal :=
  .next { s with state := s.din }

/-- STORE_BLOCK: `DOUT[c] <- STATE[c]` (R194). -/
def execStoreBlock (s : State) : Host.Outcome State Fault Refusal :=
  .next { s with dout := s.state }

/-- ROUND n: one full middle round; BAD_ROUND and NO_SCHED (R195). -/
def execRound (n : BitVec 4) (s : State) : Host.Outcome State Fault Refusal :=
  performChecked (.round n) s { s with state := middleRound s.rk s.state (roundGroup n) }

/-- FINAL_ROUND: the last round; NO_SCHED (R196). -/
def execFinalRound (s : State) : Host.Outcome State Fault Refusal :=
  performChecked .finalRound s { s with state := lastRound s.rk s.state }

/-- ENCRYPT: the whole encryption of DIN under KEY (R197). -/
def execEncrypt (s : State) : Host.Outcome State Fault Refusal :=
  .next { s with
    rk := (cipher s.key s.din).2, schedValid := true,
    state := (cipher s.key s.din).1, dout := (cipher s.key s.din).1 }

/-- CLR_ERR: `ERR <- 0`, `ERR_OVF <- 0` (R198). -/
def execClrErr (s : State) : Host.Outcome State Fault Refusal := .next s.clearErrors

end Sys2Proof.Machine
end

