-- ==== Sys2Proof/Machine/TableAccelerator.lean ====
section
/-! DEFINITION. The accelerator tables, the table round, and the commands GEN_TABLES, T_ROUND and ENCRYPT_T
(44_table_accelerator.md). -/

namespace Sys2Proof.Machine

/-- `T0[i] = MixColumn(pack(SBOX[i], 0, 0, 0))` (R220; log 16). -/
def t0Entry (i : Byte) : Word := mixColumn (pack (sbox i) 0 0 0)

/-- The generated table that rotates T0 by `k` byte positions (R221; log 16). -/
def rotatedTable (k : Nat) : Table :=
  Vector.ofFn fun i : Fin 256 => rotBytes (t0Entry (BitVec.ofFin i)) k

/-- The four generated tables: T0, and T1, T2, T3 rotated by 3, 2, 1 (R220, R221, R225). -/
def genT0 : Table := Vector.ofFn fun i : Fin 256 => t0Entry (BitVec.ofFin i)
def genT1 : Table := rotatedTable 3
def genT2 : Table := rotatedTable 2
def genT3 : Table := rotatedTable 1

/-- `TRound_W(S, n)`: column `c` from four table lookups and the round key (R222), with the tables of a
state and a schedule `W`. -/
def tableRound (s : State) (W : KeySchedule) (S : Block) (n : Fin 11) : Block :=
  addRoundKey W
    (Vector.ofFn fun c : Fin 4 =>
      s.t0[(byte S[c] 0).toFin] ^^^ s.t1[(byte S[c + 1] 1).toFin]
        ^^^ s.t2[(byte S[c + 2] 2).toFin] ^^^ s.t3[(byte S[c + 3] 3).toFin])
    n

/-- GEN_TABLES: all four tables, TABLES_VALID <- 1; UNSUPPORTED (R225, R228). -/
def execGenTables (s : State) : Host.Outcome State Fault Refusal :=
  performChecked .genTables s
    { s with t0 := genT0, t1 := genT1, t2 := genT2, t3 := genT3, tablesValid := true }

/-- T_ROUND n: one middle round by the table path; UNSUPPORTED, BAD_ROUND, NO_TABLES, NO_SCHED (R226). -/
def execTRound (n : BitVec 4) (s : State) : Host.Outcome State Fault Refusal :=
  performChecked (.tRound n) s { s with state := tableRound s s.rk s.state (roundGroup n) }

/-- The encryption of DIN under KEY by the table path, with `W = KeyExpansion(KEY)`; the final round has no
table form (R224, R227). -/
def tableCipher (s : State) (W : KeySchedule) : Block := cipherRounds (tableRound s W) W s.din

/-- ENCRYPT_T: the whole encryption by the table path; UNSUPPORTED, NO_TABLES (R227). -/
def execEncryptT (s : State) : Host.Outcome State Fault Refusal :=
  performChecked .encryptT s
    { s with
      rk := keyExpansion s.key, schedValid := true,
      state := tableCipher s (keyExpansion s.key), dout := tableCipher s (keyExpansion s.key) }

end Sys2Proof.Machine
end

