-- ==== Sys2Proof/Machine/Dispatch.lean ====
section
/-! DEFINITION. `Execute`: one arm per command (30_encoding.md R95, R97). -/

namespace Sys2Proof.Machine

def exec (i : Instr) (s : State) : Host.Outcome State Fault Refusal :=
  match i with
  -- 43_cipher_control.md, 41_key_schedule.md, 42_round_transforms.md
  | .nop => Sys2Proof.Machine.execNop s
  | .loadBlock => Sys2Proof.Machine.execLoadBlock s
  | .storeBlock => Sys2Proof.Machine.execStoreBlock s
  | .expandKey => Sys2Proof.Machine.execExpandKey s
  | .addRoundKey n => Sys2Proof.Machine.execAddRoundKey n s
  | .subBytes => Sys2Proof.Machine.execSubBytes s
  | .shiftRows => Sys2Proof.Machine.execShiftRows s
  | .mixColumns => Sys2Proof.Machine.execMixColumns s
  | .round n => Sys2Proof.Machine.execRound n s
  | .finalRound => Sys2Proof.Machine.execFinalRound s
  | .encrypt => Sys2Proof.Machine.execEncrypt s
  -- 40_field_and_sbox.md
  | .xtime arg => Sys2Proof.Machine.execXtime arg s
  | .sbox arg => Sys2Proof.Machine.execSbox arg s
  -- 44_table_accelerator.md
  | .genTables => Sys2Proof.Machine.execGenTables s
  | .tRound n => Sys2Proof.Machine.execTRound n s
  | .encryptT => Sys2Proof.Machine.execEncryptT s
  | .clrErr => Sys2Proof.Machine.execClrErr s

end Sys2Proof.Machine
end

