-- ==== Sys2Proof/Machine/Window.lean ====
section
/-! DEFINITION. Host accesses to the register window: reads, writes, issuing a command, and accesses by
host byte address (20_memory.md R60-R69; 30_encoding.md R96; 00_scope.md R10). -/

namespace Sys2Proof.Machine

/-- What a legal read returns (R64, R67-R69). -/
def State.readTarget (s : State) : Target → Word
  | .cmd => s.cmd
  | .status => s.statusRead
  | .result => s.resultRead
  | .id => idWord
  | .key j => s.key[j]
  | .din c => s.din[c]
  | .dout c => s.dout[c]
  | .state c => s.state[c]
  | .rk k => if s.schedValid then s.rk[k] else 0
  | .sbox i => zext32 (sbox (BitVec.ofFin i))
  | .table t i => if s.tablesReady then s.tableEntry t i else 0
  | .unmapped => 0

/-- What a legal read of a window offset returns (R62, R64). -/
def State.readWindow (s : State) (off : Offset) : Word :=
  s.readTarget (windowTarget s.capTables off)

/-- `HostRead(off, n)`: an illegal access returns 0 and records BAD_ACCESS; a legal one changes nothing
(R63, R64). The value goes to what the host has seen. -/
def State.hostRead (off : Offset) (n : Nat) (s : State) : State :=
  if legalAccess off n then { s with returned := s.readWindow off :: s.returned }
  else { s.recordError .badAccess with returned := 0 :: s.returned }

/-- `Issue(v)`: the word is stored in CMD, then rejected or accepted (R96). -/
def State.issue (v : Word) (s : State) : State :=
  match check v s with
  | .none => State.acceptCommand v { s with cmd := v }
  | code => State.rejectCommand code { s with cmd := v }

/-- A legal write to what an offset names (R65, R66). -/
def State.writeTarget (v : Word) (s : State) : Target → State
  | .cmd => if s.busy then s.recordError .busy else s.issue v
  | .key j => if s.busy then s.recordError .busy else s.writeKey j v
  | .din c => if s.busy then s.recordError .busy else s.writeDin c v
  | .status => s.recordError .badAccess
  | .result => s.recordError .badAccess
  | .id => s.recordError .badAccess
  | .dout _ => s.recordError .badAccess
  | .state _ => s.recordError .badAccess
  | .rk _ => s.recordError .badAccess
  | .sbox _ => s.recordError .badAccess
  | .table _ _ => s.recordError .badAccess
  | .unmapped => s.recordError .badAccess

/-- `HostWrite(off, n, v)`: an illegal access is dropped and records BAD_ACCESS (R63, R65). -/
def State.hostWrite (off : Offset) (n : Nat) (v : Word) (s : State) : State :=
  if legalAccess off n then s.writeTarget v (windowTarget s.capTables off)
  else s.recordError .badAccess

/-! ### Accesses by host byte address -/

/-- `ENGINE_BASE`, 8 KiB aligned (R7, R61; log 7). -/
def engineBase : BitVec 32 := Config.enginePage ++ (0 : BitVec 13)

/-- The window offset of a host byte address, none where the address is outside the window and the access
does not reach the engine (R10, R61). -/
def windowOffset (addr : BitVec 32) : Option Offset :=
  if (addr - engineBase).toNat < 0x2000 then some ((addr - engineBase).setWidth 13) else none

/-- `MemRead(addr, n)`, where it reaches the engine (R10). -/
def memRead (addr : BitVec 32) (n : Nat) : Option Action :=
  (windowOffset addr).map fun off => .hostRead off n

/-- `MemWrite(addr, n, v)`, where it reaches the engine (R10). -/
def memWrite (addr : BitVec 32) (n : Nat) (v : Word) : Option Action :=
  (windowOffset addr).map fun off => .hostWrite off n v

end Sys2Proof.Machine
end

