-- ==== Sys2Proof/Machine/Sequencer.lean ====
section
/-! DEFINITION. The command sequencer and the whole machine's atomic steps (30_encoding.md R97;
70_reset_and_hazards.md R290, R292). -/

namespace Sys2Proof.Machine

/-- An outcome with its next state finished (R97). -/
def finishOutcome : Host.Outcome State Fault Refusal → Host.Outcome State Fault Refusal
  | .next s => .next s.finishCommand
  | .fault r => .fault r
  | .refused r => .refused r

/-- `Complete()`: Execute the pending command, then BUSY <- 0, DONE <- 1, nothing pending (R97). With no
command pending it is not enabled and nothing happens (log 5). A pending word that is no command, which no
run makes, is turned away with the code Check gives it (R100; log 10). -/
def complete (s : State) : Host.Outcome State Fault Refusal :=
  match s.pending with
  | none => .next s
  | some w =>
    match decode w with
    | .ok i => finishOutcome (exec i s)
    | .error _ => .next (s.rejectCommand (check w s)).finishCommand

/-- One of the machine's atomic steps (R292). -/
def performAction (a : Action) (s : State) : Host.Outcome State Fault Refusal :=
  match a with
  | .hostRead off n => .next (s.hostRead off n)
  | .hostWrite off n v => .next (s.hostWrite off n v)
  | .complete => complete s
  | .reset => .next s.resetEngine

/-- The next atomic step: the first action that is still to happen, and once there is none, the completion
of a command that is still pending (R290; log 3, log 4). -/
def nextAction (s : State) : Host.Outcome State Fault Refusal :=
  match s.actions with
  | [] => complete s
  | a :: rest => performAction a { s with actions := rest }

/-- A command as issued and accepted, its completion the next action (log 12). -/
def State.withPendingCommand (s : State) (v : Word) : State :=
  { s with cmd := v, pending := some v, done := false, actions := .complete :: s.actions }

end Sys2Proof.Machine
end

