-- ==== Sys2Proof/Machine/Step.lean ====
section
/-! DEFINITION. The step of the whole machine, and a state whose next step runs a given command. -/

namespace Sys2Proof.Machine

/-- One atomic step of the whole machine (R292). -/
def step (s : State) : Host.Outcome State Fault Refusal := nextAction s

/-- `s` with the command word placed where the sequencer takes its next command from: pending, with its
completion the next action (log 12). -/
def State.withFetchWord (s : State) (nbits w : Nat) : State :=
  s.withPendingCommand (tableWord nbits w)

end Sys2Proof.Machine
end

