-- ==== Sys2Proof/Machine/HostProgram.lean ====
section
/-! DEFINITION. The host-program notation, each form as the actions it expands to (30_encoding.md R104).
A host's loops and decisions are outside the engine; its accesses in order are the program (log 21). -/

namespace Sys2Proof.Machine.HostProgram

/-- `WR off, v` (R104). -/
def wr (off : Offset) (v : Word) : Action := .hostWrite off 4 v

/-- `RD off` (R104). -/
def rd (off : Offset) : Action := .hostRead off 4

/-- `CMD m`: the command word written to CMD (R104). -/
def cmd (i : Instr) : Action := wr 0x0000 (encode i)

/-- `WAIT` as it ends: some polls of STATUS that still see BUSY = 1, the completion, and the poll that sees
BUSY = 0 (R104, R285). -/
def wait (polls : Nat) : List Action := List.replicate polls (rd 0x0004) ++ [.complete, rd 0x0004]

/-- `RUN m` = `CMD m` then `WAIT` (R104). -/
def run (i : Instr) (polls : Nat) : List Action := cmd i :: wait polls

/-- `SETKEY k`: the four key words (R104). -/
def setKey (k : Block) : List Action := [wr 0x0010 k[0], wr 0x0014 k[1], wr 0x0018 k[2], wr 0x001C k[3]]

/-- `SETIN p`: the four input words (R104). -/
def setIn (p : Block) : List Action := [wr 0x0020 p[0], wr 0x0024 p[1], wr 0x0028 p[2], wr 0x002C p[3]]

/-- `GETOUT`: the four output words (R104). -/
def getOut : List Action := [rd 0x0030, rd 0x0034, rd 0x0038, rd 0x003C]

end Sys2Proof.Machine.HostProgram
end

