-- ==== Sys2Proof/Safety.lean ====
section
/-! DEFINITION. What a sound state and a finished run are, when two states look alike to the host, and the
other terms the claims are written in. -/

namespace Sys2Proof.Machine

/-! ### Sound states -/

/-- What holds in every reachable state. -/
structure State.Inv (s : State) : Prop where
  /-- The host can observe the pending command's word in CMD (R41). -/
  pending_in_cmd : ∀ w, s.pending = some w → s.cmd = w
  /-- Everything Check tested is unchanged between issue and completion (R97). -/
  pending_accepted : ∀ w, s.pending = some w → check w s = .none
  /-- DONE is 0 while a command is pending (R257). -/
  pending_not_done : s.pending ≠ none → s.done = false
  /-- SCHED_VALID reads 1 only when RK holds KeyExpansion(KEY) (R35). -/
  schedule_of_key : s.schedValid = true → s.rk = keyExpansion s.key
  /-- TABLES_VALID reads 1 only when T0..T3 hold the generated tables (R36). -/
  tables_generated : s.tablesValid = true → s.t0 = genT0 ∧ s.t1 = genT1 ∧ s.t2 = genT2 ∧ s.t3 = genT3
  /-- TABLES_VALID is 0 while HAS_TABLES = 0 (R36). -/
  tables_present : s.tablesValid = true → s.capTables = true
  /-- Bits 31:8 of RESULT are 0 (R26, R33). -/
  result_byte : s.resultRead = s.result
  /-- ERR_OVF is set only when an error occurs while ERR is non-zero (R38). -/
  overflow_after_error : s.errOvf = true → s.err ≠ .none

/-! ### Runs -/

/-- A run is over: the host has made its last access and BUSY = 0 (R293). -/
def State.finished (s : State) : Prop := s.actions = [] ∧ s.pending = none

/-- `k` steps from a state, through the host's interface. -/
def runSteps (k : Nat) (s : State) : Host.Outcome State Fault Refusal := Sys2Proof.core.run k s

/-- A host read or write. -/
def Action.isAccess : Action → Bool
  | .hostRead _ _ => true
  | .hostWrite _ _ _ => true
  | .complete => false
  | .reset => false

/-- The next step is the completion step: its turn has come, or no action is left (R290, R292; log 4). -/
def State.completesNext (s : State) : Prop := s.actions = [] ∨ ∃ rest, s.actions = .complete :: rest

/-- The state with the action it is about to take removed from those still to happen. -/
def State.popAction (s : State) : State := { s with actions := s.actions.tail }

/-- The next step completes the pending command `i` (R97). -/
def State.completes (s : State) (i : Instr) : Prop :=
  s.completesNext ∧ ∃ w, s.pending = some w ∧ decode w = .ok i

/-- The next step is an accepted host write to some `KEY[j]` (R22, R65). -/
def State.writesKey (s : State) : Prop :=
  s.busy = false ∧ ∃ off v rest, s.actions = .hostWrite off 4 v :: rest ∧
    off.toNat ∈ [0x10, 0x14, 0x18, 0x1C]

/-- The next step is an accepted host write to some `DIN[c]` (R23, R65). -/
def State.writesDin (s : State) : Prop :=
  s.busy = false ∧ ∃ off v rest, s.actions = .hostWrite off 4 v :: rest ∧
    off.toNat ∈ [0x20, 0x24, 0x28, 0x2C]

/-- The next step is the reset input (R280). -/
def State.resetsNext (s : State) : Prop := ∃ rest, s.actions = .reset :: rest

/-- The next step is a legal read of STATUS (R32, R64). -/
def State.readsStatusNext (s : State) : Prop := ∃ rest, s.actions = .hostRead 0x0004 4 :: rest

/-- The state with another error report. -/
def State.withReport (e : ErrCode) (o : Bool) (s : State) : State := { s with err := e, errOvf := o }

/-- The commands of a list executed one after the other, none once one of them does not go on (R200). -/
def execAll : List Instr → State → Option State
  | [], s => some s
  | i :: is, s =>
    match exec i s with
    | .next t => execAll is t
    | .fault _ => none
    | .refused _ => none

/-! ### Latency -/

/-- How many host accesses come before the next completion step, none where no completion step is listed
before the end of the actions or a reset (R289). -/
def accessesBeforeComplete : List Action → Option Nat
  | [] => none
  | .complete :: _ => some 0
  | .reset :: _ => none
  | .hostRead _ _ :: rest => (accessesBeforeComplete rest).map (· + 1)
  | .hostWrite _ _ _ :: rest => (accessesBeforeComplete rest).map (· + 1)

/-- Just after an issue: the actions leave the pending command at least `CMD_LATENCY(op)` host accesses
(R289). The step function allows every schedule (log 6). -/
def State.latencyMet (s : State) : Prop :=
  ∀ w k, s.pending = some w → accessesBeforeComplete s.actions = some k → Config.cmdLatency (opcField w) ≤ k

/-! ### What the host can tell apart -/

/-- The two states differ at most in contents no rule can observe: RK while SCHED_VALID reads 0, T0..T3 while
TABLES_VALID reads 0, and which draw a reset takes (R281). -/
structure SameView (s t : State) : Prop where
  key : s.key = t.key
  din : s.din = t.din
  dout : s.dout = t.dout
  state : s.state = t.state
  result : s.result = t.result
  cmd : s.cmd = t.cmd
  pending : s.pending = t.pending
  schedValid : s.schedValid = t.schedValid
  tablesValid : s.tablesValid = t.tablesValid
  done : s.done = t.done
  errOvf : s.errOvf = t.errOvf
  err : s.err = t.err
  capTables : s.capTables = t.capTables
  actions : s.actions = t.actions
  returned : s.returned = t.returned
  rk : s.schedValid = true → s.rk = t.rk
  tables : s.tablesReady = true → s.t0 = t.t0 ∧ s.t1 = t.t1 ∧ s.t2 = t.t2 ∧ s.t3 = t.t3

/-! ### The terms of the field and the state -/

/-- The product of two elements of GF(2^8): the sum over the bits `i` of `b` of `a` times x^i (R120, R121). -/
def gfMul (a b : Byte) : Byte :=
  (List.range 8).foldl (fun acc i => if b.getLsbD i then acc ^^^ Nat.iterate xtime i a else acc) 0

/-- `s[r][c]`: the byte at row `r`, column `c` of a state (R160). -/
def lane (S : Block) (r c : Fin 4) : Byte := byte S[c] r.val

/-- The circulant matrix of MixColumns (R163). -/
def mixMatrix (r c : Fin 4) : Byte :=
  #v[#v[0x02, 0x03, 0x01, 0x01],
     #v[0x01, 0x02, 0x03, 0x01],
     #v[0x01, 0x01, 0x02, 0x03],
     #v[(0x03 : Byte), 0x01, 0x01, 0x02]][r][c]

/-- The affine map of the S-box's second definition (R124). -/
def sboxAffine (b : Byte) : Byte :=
  b ^^^ b.rotateLeft 1 ^^^ b.rotateLeft 2 ^^^ b.rotateLeft 3 ^^^ b.rotateLeft 4 ^^^ 0x63

/-- The window words a command may change, besides STATUS: the "written by" column of R20. -/
def mayWrite : Instr → Target → Bool
  | .nop, _ => false
  | .loadBlock, x => match x with | .state _ => true | _ => false
  | .storeBlock, x => match x with | .dout _ => true | _ => false
  | .expandKey, x => match x with | .rk _ => true | _ => false
  | .addRoundKey _, x => match x with | .state _ => true | _ => false
  | .subBytes, x => match x with | .state _ => true | _ => false
  | .shiftRows, x => match x with | .state _ => true | _ => false
  | .mixColumns, x => match x with | .state _ => true | _ => false
  | .round _, x => match x with | .state _ => true | _ => false
  | .finalRound, x => match x with | .state _ => true | _ => false
  | .encrypt, x => match x with | .state _ => true | .dout _ => true | .rk _ => true | _ => false
  | .xtime _, x => match x with | .result => true | _ => false
  | .sbox _, x => match x with | .result => true | _ => false
  | .genTables, x => match x with | .table _ _ => true | _ => false
  | .tRound _, x => match x with | .state _ => true | _ => false
  | .encryptT, x => match x with | .state _ => true | .dout _ => true | .rk _ => true | _ => false
  | .clrErr, _ => false

/-! ### The checks of a command word, one by one, on the number the word is -/

/-- The conditions of R98 with their codes, in the order of R254. -/
def checkConditions (v : Nat) (s : State) : List (ErrCode × Bool) :=
  let op := v % 256
  let arg := v / 256 % 256
  let rnd := v / 65536 % 16
  let rsv := v / 1048576
  [(.illegalOpc, 0x11 ≤ op),
   (.unsupported, 0x0D ≤ op ∧ op ≤ 0x0F ∧ s.capTables = false),
   (.reserved, rsv ≠ 0 ∨ (arg ≠ 0 ∧ op ≠ 0x0B ∧ op ≠ 0x0C) ∨ (rnd ≠ 0 ∧ op ≠ 0x04 ∧ op ≠ 0x08 ∧ op ≠ 0x0E)),
   (.badRound, (op = 0x04 ∧ 11 ≤ rnd) ∨ ((op = 0x08 ∨ op = 0x0E) ∧ (rnd = 0 ∨ 10 ≤ rnd))),
   (.noTables, (op = 0x0E ∨ op = 0x0F) ∧ s.tablesReady = false),
   (.noSched, (op = 0x04 ∨ op = 0x08 ∨ op = 0x09 ∨ op = 0x0E) ∧ s.schedValid = false)]

/-- The code of the first condition that holds, NONE where none does (R254). -/
def firstFailing : List (ErrCode × Bool) → ErrCode
  | [] => .none
  | (code, b) :: rest => if b then code else firstFailing rest

/-- The errors a command word with a given opcode can raise at issue (R252). -/
def possibleErrors : Nat → List ErrCode
  | 0x04 => [.reserved, .badRound, .noSched]
  | 0x08 => [.reserved, .badRound, .noSched]
  | 0x09 => [.reserved, .noSched]
  | 0x0D => [.unsupported, .reserved]
  | 0x0E => [.unsupported, .reserved, .badRound, .noTables, .noSched]
  | 0x0F => [.unsupported, .reserved, .noTables]
  | op => if op ≤ 0x10 then [.reserved] else [.illegalOpc]

end Sys2Proof.Machine
end

