-- ==== Sys2Proof/Certificates/Slice0/Obligations.lean ====
section
/-! DEFINITION. The statements for the provers. Each docstring names the rules of spec/ it formalises; a clause
that rests on the model's own choice names its log entry. -/

open Sys2Proof Sys2Proof.Machine

/-! ### Encoding -/

/-- Command words written out from the spec's encodings decode to the commands they stand for
(30_encoding.md sections 1, 2 and 6). -/
def Obligations.SpecWordsDecodeToTheirCommands : Prop :=
  decode 0x00000000 = .ok .nop ∧ decode 0x00000001 = .ok .loadBlock ∧
  decode 0x000A0004 = .ok (.addRoundKey 10) ∧ decode 0x00000005 = .ok .subBytes ∧
  decode 0x00010008 = .ok (.round 1) ∧ decode 0x0000000A = .ok .encrypt ∧
  decode 0x0000570B = .ok (.xtime 0x57) ∧ decode 0x0000530C = .ok (.sbox 0x53) ∧
  decode 0x0009000E = .ok (.tRound 9) ∧ decode 0x00000010 = .ok .clrErr ∧
  decode 0x00000011 = .error .illegalOpc ∧ decode 0x00000100 = .error .reserved

/-- Decode and encode are inverse: decoding an encoded command gives it back, with every operand at every value
its field holds, and encoding a decoded word gives the word back, so no bit of any encoding is ignored
(30_encoding.md sections 1, 2 and 6). -/
def Obligations.DecodeAndEncodeAreInverse : Prop :=
  (∀ i : Instr, decode (encode i) = .ok i) ∧
  (∀ (v : Word) (i : Instr), decode v = .ok i → encode i = v)

/-- A word selects a row of the match-and-mask table exactly where it decodes to that row's command, no word
selects two rows, and the checks of a decoded word are the range and state checks that follow decoding
(30_encoding.md section 5, a table the spec marks "derived: from rule R90, rule R94 and rule R95"). -/
def Obligations.MatchAndMaskSelectTheCommand : Prop :=
  (∀ v : Word, ∀ row ∈ opcodeTable,
    (v &&& row.mask = row.pattern ↔ ∃ i, decode v = .ok i ∧ i.mnemonic = row.mnemonic)) ∧
  (∀ v : Word, ∀ row ∈ opcodeTable, ∀ row' ∈ opcodeTable,
    v &&& row.mask = row.pattern → v &&& row'.mask = row'.pattern → row = row') ∧
  (∀ (v : Word) (i : Instr) (s : State), decode v = .ok i → check v s = checkInstr i s)

/-- The two reasons the decoder rejects a word, on the number the word is: an opcode from 0x11 up, or an
assigned opcode with a non-zero field that it does not use (30_encoding.md sections 1 and 5). -/
def Obligations.DecoderRejectsByCause : Prop :=
  ∀ v : Word,
    let op := v.toNat % 256
    let arg := v.toNat / 256 % 256
    let rnd := v.toNat / 65536 % 16
    let rsv := v.toNat / 1048576
    (decode v = .error .illegalOpc ↔ 0x11 ≤ op) ∧
    (decode v = .error .reserved ↔ op ≤ 0x10 ∧
      (rsv ≠ 0 ∨ (arg ≠ 0 ∧ op ≠ 0x0B ∧ op ≠ 0x0C) ∨ (rnd ≠ 0 ∧ op ≠ 0x04 ∧ op ≠ 0x08 ∧ op ≠ 0x0E)))

/-- A word is accepted exactly where it is the encoding of a command that passes its own range and state
checks (30_encoding.md section 5). -/
def Obligations.AcceptedWordsAreCheckedCommands : Prop :=
  ∀ (v : Word) (s : State),
    check v s = .none ↔ ∃ i, encode i = v ∧ i.wf = true ∧
      (needsAccel i = true → s.capTables = true) ∧ (needsTables i = true → s.tablesReady = true) ∧
      (needsSched i = true → s.schedValid = true)

/-- A word that fails several checks reports one code, the first in the order of the codes' numbers; with
the examples of R254. -/
def Obligations.CheckReportsTheFirstFailure : Prop :=
  (∀ (v : Word) (s : State), check v s = firstFailing (checkConditions v.toNat s)) ∧
  (∀ (v : Nat) (s : State),
    (checkConditions v s).map (fun c => c.1.code) = [1, 2, 3, 4, 5, 6]) ∧
  (∀ s : State, s.tablesValid = false → s.schedValid = false → s.capTables = true →
    check 0x0000000E s = .badRound ∧ check 0x0010000E s = .reserved ∧
    check 0x0009000E s = .noTables ∧ ∀ v : Word, v.toNat % 256 = 0x11 → check v s = .illegalOpc)

/-- The errors each command word can raise are those of R252's table, and each of them is raised by some
word of that opcode in some state (60_exceptions.md section 1). -/
def Obligations.EachOpcodeRaisesItsListedErrors : Prop :=
  (∀ (v : Word) (s : State),
    check v s = .none ∨ check v s ∈ possibleErrors (v.toNat % 256)) ∧
  (∀ op : Nat, op < 256 → ∀ e ∈ possibleErrors op,
    ∃ (v : Word) (s : State), v.toNat % 256 = op ∧ check v s = e)

/-! ### Host accesses -/

/-- An access that is not 32 bits wide and aligned is refused: a write is dropped, a read returns 0, and
BAD_ACCESS is recorded (R63). -/
def Obligations.IllegalAccessIsRefused : Prop :=
  ∀ (s : State) (off : Offset) (n : Nat) (v : Word) (rest : List Action),
    (n ≠ 4 ∨ off.toNat % 4 ≠ 0) →
    (s.actions = .hostRead off n :: rest →
      step s = .next { ({ s with actions := rest } : State).recordError .badAccess with
        returned := 0 :: s.returned }) ∧
    (s.actions = .hostWrite off n v :: rest →
      step s = .next (({ s with actions := rest } : State).recordError .badAccess))

/-- The effect of a legal write at every aligned offset, BUSY or not: a command word is issued, KEY and DIN
are written, all three are refused with BUSY while a command is pending, and everything else is refused with
BAD_ACCESS, BUSY or not (R65, R66). -/
def Obligations.LegalWriteDoesWhatItsOffsetSays : Prop :=
  ∀ (s : State) (off : Offset) (v : Word) (rest : List Action),
    s.actions = .hostWrite off 4 v :: rest → off.toNat % 4 = 0 →
    let u : State := { s with actions := rest }
    (off.toNat = 0x0000 → s.busy = false → step s = .next (u.issue v)) ∧
    (∀ j : Fin 4, off.toNat = 0x0010 + 4 * j.val → s.busy = false →
      step s = .next { u with key := s.key.set j v, schedValid := false }) ∧
    (∀ c : Fin 4, off.toNat = 0x0020 + 4 * c.val → s.busy = false →
      step s = .next { u with din := s.din.set c v }) ∧
    (off.toNat = 0x0000 ∨ (0x0010 ≤ off.toNat ∧ off.toNat < 0x0030) → s.busy = true →
      step s = .next (u.recordError .busy)) ∧
    (off.toNat ≠ 0x0000 → (off.toNat < 0x0010 ∨ 0x0030 ≤ off.toNat) →
      step s = .next (u.recordError .badAccess))

/-- A legal read changes no register, with a command pending or not, and what it returns at every offset of
the register map: the registers, the gated RK and T windows, the S-box ROM, and 0 where nothing is mapped
(R64, R67, R68, R69). -/
def Obligations.LegalReadReturnsTheRegisterMap : Prop :=
  (∀ (s : State) (off : Offset) (rest : List Action),
    s.actions = .hostRead off 4 :: rest → off.toNat % 4 = 0 →
    step s = .next { s with actions := rest, returned := s.readWindow off :: s.returned }) ∧
  (∀ s : State,
    s.readWindow 0x0000 = s.cmd ∧ s.readWindow 0x0004 = s.statusRead ∧
    s.readWindow 0x0008 = s.resultRead ∧ s.readWindow 0x000C = 0x41455331 ∧
    (∀ j : Fin 4, s.readWindow (BitVec.ofNat 13 (0x0010 + 4 * j.val)) = s.key[j]) ∧
    (∀ c : Fin 4, s.readWindow (BitVec.ofNat 13 (0x0020 + 4 * c.val)) = s.din[c]) ∧
    (∀ c : Fin 4, s.readWindow (BitVec.ofNat 13 (0x0030 + 4 * c.val)) = s.dout[c]) ∧
    (∀ c : Fin 4, s.readWindow (BitVec.ofNat 13 (0x0040 + 4 * c.val)) = s.state[c]) ∧
    (∀ k : Fin 44, s.readWindow (BitVec.ofNat 13 (0x0100 + 4 * k.val)) =
      if s.schedValid then s.rk[k] else 0) ∧
    (∀ i : Byte, s.readWindow (BitVec.ofNat 13 (0x0400 + 4 * i.toNat)) = (sbox i).setWidth 32) ∧
    (∀ i : Fin 256,
      let shown := s.capTables && s.tablesValid
      s.readWindow (BitVec.ofNat 13 (0x1000 + 4 * i.val)) = (if shown then s.t0[i] else 0) ∧
      s.readWindow (BitVec.ofNat 13 (0x1400 + 4 * i.val)) = (if shown then s.t1[i] else 0) ∧
      s.readWindow (BitVec.ofNat 13 (0x1800 + 4 * i.val)) = (if shown then s.t2[i] else 0) ∧
      s.readWindow (BitVec.ofNat 13 (0x1C00 + 4 * i.val)) = (if shown then s.t3[i] else 0)) ∧
    (∀ off : Offset,
      (0x0050 ≤ off.toNat ∧ off.toNat < 0x0100) ∨ (0x01B0 ≤ off.toNat ∧ off.toNat < 0x0400) ∨
      (0x0800 ≤ off.toNat ∧ off.toNat < 0x1000) ∨ (0x1000 ≤ off.toNat ∧ s.capTables = false) →
      s.readWindow off = 0))

/-- STATUS as it reads in every state: each field in its bits, the value after reset, and a host write to it
refused with BAD_ACCESS (R32). -/
def Obligations.StatusReadsItsFields : Prop :=
  (∀ s : State,
    let v := s.readWindow 0x0004
    v.getLsbD 0 = s.pending.isSome ∧ v.getLsbD 1 = s.schedValid ∧
    v.getLsbD 2 = (s.capTables && s.tablesValid) ∧ v.getLsbD 3 = s.done ∧ v.getLsbD 4 = s.errOvf ∧
    v.extractLsb' 5 3 = 0 ∧ v.extractLsb' 8 4 = s.err.code ∧ v.extractLsb' 12 4 = 0 ∧
    v.getLsbD 16 = s.capTables ∧ v.extractLsb' 17 15 = 0) ∧
  State.reset.readWindow 0x0004 = 0x00010000 ∧
  (∀ (s : State) (v : Word) (rest : List Action), s.actions = .hostWrite 0x0004 4 v :: rest →
    step s = .next (({ s with actions := rest } : State).recordError .badAccess))

/-- The bits hardwired to 0 read 0 in every state: STATUS 7:5, 15:12, 31:17, RESULT 31:8, and 31:8 of every
S-box window read (R33). -/
def Obligations.HardwiredBitsReadZero : Prop :=
  ∀ s : State,
    s.readWindow 0x0004 &&& 0xFFFEF0E0 = 0 ∧
    s.readWindow 0x0008 &&& 0xFFFFFF00 = 0 ∧
    ∀ off : Offset, 0x0400 ≤ off.toNat → off.toNat < 0x0800 → s.readWindow off &&& 0xFFFFFF00 = 0

/-- ID always reads the ASCII bytes "AES1", 'A' in bits 31:24, a host write to it is refused with BAD_ACCESS,
and reset leaves it unchanged (R34). -/
def Obligations.IdAlwaysReadsAES1 : Prop :=
  (∀ s : State, s.readWindow 0x000C = 0x41455331) ∧
  (∀ s : State, s.resetEngine.readWindow 0x000C = s.readWindow 0x000C) ∧
  pack 0x31 0x53 0x45 0x41 = 0x41455331 ∧
  (∀ (s : State) (v : Word) (rest : List Action), s.actions = .hostWrite 0x000C 4 v :: rest →
    step s = .next (({ s with actions := rest } : State).recordError .badAccess))

/-- A host access to `ENGINE_BASE + off` reaches offset `off`, every access that reaches the engine is one of
these, and the window is 8 KiB aligned (R61); for every value of the open parameter ENGINE_BASE (log 7). -/
def Obligations.WindowIsReachedAtEngineBase : Prop :=
  engineBase.toNat % 0x2000 = 0 ∧
  (∀ (off : Offset) (n : Nat) (v : Word),
    memRead (engineBase + off.setWidth 32) n = some (.hostRead off n) ∧
    memWrite (engineBase + off.setWidth 32) n v = some (.hostWrite off n v)) ∧
  (∀ (addr : BitVec 32) (n : Nat) (v : Word) (a : Action),
    (memRead addr n = some a → ∃ off : Offset, addr = engineBase + off.setWidth 32 ∧ a = .hostRead off n) ∧
    (memWrite addr n v = some a →
      ∃ off : Offset, addr = engineBase + off.setWidth 32 ∧ a = .hostWrite off n v))

/-! ### Issue, errors and flags -/

/-- A command word written to CMD while BUSY = 0 is stored in CMD; if Check passes, the command is pending
and DONE is 0; if it fails, DONE is 1 and the code is recorded, and in neither case is anything else changed
(R96). -/
def Obligations.IssueAcceptsOrRejects : Prop :=
  ∀ (s : State) (v : Word) (rest : List Action),
    s.actions = .hostWrite 0x0000 4 v :: rest → s.busy = false →
    (check v s = .none →
      step s = .next { s with actions := rest, cmd := v, pending := some v, done := false }) ∧
    (check v s ≠ .none → s.err = .none →
      step s = .next { s with actions := rest, cmd := v, done := true, err := check v s }) ∧
    (check v s ≠ .none → s.err ≠ .none →
      step s = .next { s with actions := rest, cmd := v, done := true, errOvf := true })

/-- Recording keeps the first error and sets ERR_OVF for later ones; the report is lowered only by a
completion of CLR_ERR or by reset; and what the report holds changes nothing else that any step does: every
register and everything the host has read are the same, but for the one value that a legal read of STATUS
returns in that step (R253). -/
def Obligations.ErrorReportIsSticky : Prop :=
  (∀ (s : State) (code : ErrCode),
    (s.err = .none → s.recordError code = { s with err := code }) ∧
    (s.err ≠ .none → s.recordError code = { s with errOvf := true })) ∧
  (∀ s t : State, step s = .next t → (s.err ≠ .none ∧ t.err ≠ s.err) ∨ (s.errOvf = true ∧ t.errOvf = false) →
    s.resetsNext ∨ s.completes .clrErr) ∧
  (∀ (s t : State) (e : ErrCode) (o : Bool), step s = .next t →
    ∃ (e' : ErrCode) (o' : Bool),
      (¬ s.readsStatusNext → step (s.withReport e o) = .next (t.withReport e' o')) ∧
      (s.readsStatusNext → step (s.withReport e o) =
        .next { t.withReport e' o' with returned := (s.withReport e o).statusRead :: t.returned.tail }))

/-- STATUS.ERR and STATUS.ERR_OVF are cleared by CLR_ERR, at its completion, and by reset (60_exceptions.md
section 3, first half of R258). -/
def Obligations.ClrErrAndResetClearTheReport : Prop :=
  ∀ s : State, s.completes .clrErr ∨ s.resetsNext →
    ∃ t, step s = .next t ∧ t.err = .none ∧ t.errOvf = false ∧ t.pending = none

/-- DONE is cleared when a command is accepted, set when it completes or at once when the word is rejected,
left alone by a command write refused for BUSY, and cleared by reset (R37). BUSY goes with it. -/
def Obligations.DoneFollowsTheCommandLifecycle : Prop :=
  (∀ (s : State) (v : Word) (rest : List Action), s.actions = .hostWrite 0x0000 4 v :: rest →
    ∃ t, step s = .next t ∧
      (s.busy = false → check v s = .none → t.done = false ∧ t.busy = true) ∧
      (s.busy = false → check v s ≠ .none → t.done = true ∧ t.busy = false) ∧
      (s.busy = true → t.done = s.done ∧ t.busy = true)) ∧
  (∀ s : State, s.completesNext → s.busy = true → ∃ t, step s = .next t ∧ t.done = true ∧ t.busy = false) ∧
  (∀ s : State, s.resetsNext → ∃ t, step s = .next t ∧ t.done = false ∧ t.busy = false)

/-- SCHED_VALID and TABLES_VALID change only at the events of the table in 10_state.md section 6, and change
there as it says (a table the spec marks "derived: from rule R22, rule R35, rule R36, rule R38"). -/
def Obligations.ValidFlagsChangeOnlyAsListed : Prop :=
  (∀ s t : State, step s = .next t →
    (s.schedValid = false → t.schedValid = true →
      s.completes .expandKey ∨ s.completes .encrypt ∨ s.completes .encryptT) ∧
    (s.schedValid = true → t.schedValid = false → s.writesKey ∨ s.resetsNext) ∧
    (s.tablesValid = false → t.tablesValid = true → s.completes .genTables) ∧
    (s.tablesValid = true → t.tablesValid = false → s.resetsNext)) ∧
  (∀ s : State, s.writesKey ∨ s.resetsNext → ∃ t, step s = .next t ∧ t.schedValid = false) ∧
  (∀ s : State, s.completes .expandKey ∨ s.completes .encrypt ∨
      (s.completes .encryptT ∧ s.tablesReady = true) →
    ∃ t, step s = .next t ∧ t.schedValid = true) ∧
  (∀ s : State, s.completes .genTables → s.capTables = true → ∃ t, step s = .next t ∧ t.tablesValid = true) ∧
  (∀ s : State, s.resetsNext → ∃ t, step s = .next t ∧ t.tablesValid = false)

/-- KEY changes only by an accepted host write to it or by reset, DIN likewise, and CAP_TABLES never: no
command writes them (10_state.md sections 2 and 4). -/
def Obligations.KeyDinAndCapTablesAreNotWrittenByCommands : Prop :=
  ∀ s t : State, step s = .next t →
    (t.key ≠ s.key → s.writesKey ∨ s.resetsNext) ∧
    (t.din ≠ s.din → s.writesDin ∨ s.resetsNext) ∧
    t.capTables = s.capTables

/-- Without the accelerator (HAS_TABLES = 0): every word of its three opcodes is rejected with UNSUPPORTED,
TABLES_VALID and CAP_TABLES read 0, the T windows are unmapped, and every other command does what it does with
HAS_TABLES = 1 (R228). -/
def Obligations.WithoutTablesTheAcceleratorIsAbsent : Prop :=
  (∀ (v : Word) (s : State), s.capTables = false → v.toNat % 256 ∈ [0x0D, 0x0E, 0x0F] →
    check v s = .unsupported ∧
    ∀ rest, s.actions = .hostWrite 0x0000 4 v :: rest → s.busy = false →
      step s = .next (({ s with actions := rest, cmd := v } : State).rejectCommand .unsupported)) ∧
  (∀ s : State, s.capTables = false →
    (s.readWindow 0x0004).getLsbD 2 = false ∧ (s.readWindow 0x0004).getLsbD 16 = false) ∧
  (∀ (s : State) (off : Offset) (rest : List Action), s.capTables = false → 0x1000 ≤ off.toNat →
    s.readWindow off = 0 ∧
    (∀ v, s.actions = .hostWrite off 4 v :: rest → off.toNat % 4 = 0 →
      step s = .next (({ s with actions := rest } : State).recordError .badAccess))) ∧
  (∀ (v : Word) (s : State) (present : Bool), v.toNat % 256 ∉ [0x0D, 0x0E, 0x0F] →
    check v { s with capTables := present } = check v s) ∧
  (∀ (i : Instr) (s t : State) (present : Bool), needsAccel i = false → exec i s = .next t →
    exec i { s with capTables := present } = .next { t with capTables := present })

/-! ### The commands -/

/-- When the completion step comes and the pending word decodes to a command, the step is that command's
`exec`, on the state with that action taken off, with nothing pending and DONE 1 afterwards (30_encoding.md
section 3). -/
def Obligations.StepExecutesThePendingCommand : Prop :=
  ∀ (s : State) (i : Instr), s.completes i →
    ∃ t, exec i s.popAction = .next t ∧ step s = .next { t with pending := none, done := true }

/-- The state that `withFetchWord` makes for a command's word runs exactly that command in its next step:
the model's own way of placing a command (log 12). -/
def Obligations.FetchWordRunsItsCommand : Prop :=
  ∀ (s : State) (i : Instr),
    ∃ t, exec i { s with cmd := encode i, pending := some (encode i), done := false } = .next t ∧
      step (s.withFetchWord 32 (encode i).toNat) = .next { t with pending := none, done := true }

/-- NOP writes no register, in every state; its only word is 0 (43_cipher_control.md section 2, NOP). -/
def Obligations.NopLeavesTheStateAlone : Prop :=
  (∀ s : State, exec .nop s = .next s) ∧ (∀ v : Word, decode v = .ok .nop ↔ v = 0)

/-- LOAD_BLOCK copies DIN to STATE and STORE_BLOCK copies STATE to DOUT, in every state, and nothing else is
changed (43_cipher_control.md section 2, LOAD_BLOCK and STORE_BLOCK). -/
def Obligations.LoadAndStoreBlockCopy : Prop :=
  ∀ s : State,
    exec .loadBlock s = .next { s with state := s.din } ∧
    exec .storeBlock s = .next { s with dout := s.state }

/-- EXPAND_KEY writes all 44 words of RK and SCHED_VALID, in every state, and nothing else: group 0 is the
key, and every later word follows the recurrence (41_key_schedule.md sections 1 and 2), with the ten round
constants of 40_field_and_sbox.md section 2, which are "from general knowledge, not in source" (log 15). -/
def Obligations.ExpandKeyWritesTheSchedule : Prop :=
  ∀ s : State, ∃ W : KeySchedule,
    exec .expandKey s = .next { s with rk := W, schedValid := true } ∧
    W = keyExpansion s.key ∧
    (∀ j : Fin 4, W[j.val] = s.key[j]) ∧
    (∀ i : Fin 10,
      W[4 * i.val + 4] = W[4 * i.val] ^^^ (subWord (rotWord W[4 * i.val + 3]) ^^^
        zext32 (#v[(0x01 : Byte), 0x02, 0x04, 0x08, 0x10, 0x20, 0x40, 0x80, 0x1B, 0x36][i])) ∧
      W[4 * i.val + 5] = W[4 * i.val + 4] ^^^ W[4 * i.val + 1] ∧
      W[4 * i.val + 6] = W[4 * i.val + 5] ^^^ W[4 * i.val + 2] ∧
      W[4 * i.val + 7] = W[4 * i.val + 6] ^^^ W[4 * i.val + 3])

/-- ADD_ROUND_KEY n with n in 0..10 and SCHED_VALID = 1 XORs round-key group n into STATE, and changes nothing
else (42_round_transforms.md sections 2 and 3). -/
def Obligations.AddRoundKeyXorsGroup : Prop :=
  ∀ (s : State) (n : Fin 11), s.schedValid = true →
    ∃ t, exec (.addRoundKey (BitVec.ofNat 4 n.val)) s = .next t ∧
      (∀ c : Fin 4, t.state[c] = s.state[c] ^^^ s.rk[4 * n.val + c.val]) ∧
      t = { s with state := t.state }

/-- SUB_BYTES replaces all 16 lanes of STATE by their S-box images, in every state, and changes nothing
else (42_round_transforms.md sections 2 and 3). -/
def Obligations.SubBytesActsOnEveryLane : Prop :=
  ∀ s : State, ∃ t, exec .subBytes s = .next t ∧
    (∀ r c : Fin 4, lane t.state r c = sbox (lane s.state r c)) ∧
    t = { s with state := t.state }

/-- SHIFT_ROWS moves row r left by r columns, in every state, and changes nothing else; four in a row give
back the original STATE (42_round_transforms.md sections 2 and 3). -/
def Obligations.ShiftRowsRotatesEachRow : Prop :=
  (∀ s : State, ∃ t, exec .shiftRows s = .next t ∧
    (∀ r c : Fin 4, lane t.state r c = lane s.state r (c + r)) ∧
    t = { s with state := t.state }) ∧
  (∀ s : State, execAll [.shiftRows, .shiftRows, .shiftRows, .shiftRows] s = some s)

/-- MIX_COLUMNS multiplies each column of STATE by the circulant matrix over GF(2^8), in every state, and
changes nothing else (42_round_transforms.md sections 2 and 3; the row order of the polynomial is "from general
knowledge, not in source", log 15). -/
def Obligations.MixColumnsMultipliesByTheMatrix : Prop :=
  ∀ s : State, ∃ t, exec .mixColumns s = .next t ∧
    (∀ r c : Fin 4, lane t.state r c =
      gfMul (lane s.state 0 c) (mixMatrix r 0) ^^^ gfMul (lane s.state 1 c) (mixMatrix r 1) ^^^
      gfMul (lane s.state 2 c) (mixMatrix r 2) ^^^ gfMul (lane s.state 3 c) (mixMatrix r 3)) ∧
    t = { s with state := t.state }

/-- XTIME a writes RESULT with the byte a shifted left and reduced by 0x11B, zero-extended, in every state,
and changes nothing else (40_field_and_sbox.md sections 1 and 4). -/
def Obligations.XtimeWritesTheReducedDouble : Prop :=
  ∀ (s : State) (a : Byte), ∃ t, exec (.xtime a) s = .next t ∧
    t.result.toNat = (if a.toNat < 128 then 2 * a.toNat else (2 * a.toNat) ^^^ 0x11B) ∧
    t = { s with result := t.result }

/-- SBOX a writes RESULT with the S-box entry of a, zero-extended, in every state, and changes nothing else;
the entry is the affine image of the inverse of a in GF(2^8), 0 for 0, the second way of 40_field_and_sbox.md
section 2 to compute the table, whose values are "from general knowledge, not in source" (log 15). -/
def Obligations.SboxCommandWritesTheAffineInverse : Prop :=
  (∀ (s : State) (a b : Byte), (a = 0 ∧ b = 0) ∨ gfMul a b = 1 →
    ∃ t, exec (.sbox a) s = .next t ∧ t.result = (sboxAffine b).setWidth 32 ∧
      t = { s with result := t.result }) ∧
  (∀ a : Byte, a ≠ 0 → ∃ b : Byte, gfMul a b = 1)

/-- ENCRYPT writes RK and SCHED_VALID from KEY, and STATE and DOUT with the cipher of DIN, in every state, and
changes nothing else; with the three known answers of 95_test_vectors.md section 1 and 2.5, which rest on the
S-box and round constants of log 15. -/
def Obligations.EncryptWritesTheCipherOfDin : Prop :=
  (∀ s : State, exec .encrypt s = .next { s with
    rk := keyExpansion s.key, schedValid := true, state := (cipher s.key s.din).1,
    dout := (cipher s.key s.din).1 }) ∧
  (cipher #v[0x03020100, 0x07060504, 0x0B0A0908, 0x0F0E0D0C]
      #v[0x33221100, 0x77665544, 0xBBAA9988, 0xFFEEDDCC]).1 =
    #v[0xD8E0C469, 0x30047B6A, 0x80B7CDD8, 0x5AC5B470] ∧
  (cipher #v[0, 0, 0, 0] #v[0, 0, 0, 0]).1 = #v[0xD44BE966, 0x3B2C8AEF, 0x59FA4C88, 0x2E2B34CA] ∧
  (cipher #v[0x16157E2B, 0xA6D2AE28, 0x8815F7AB, 0x3C4FCF09]
      #v[0xA8F64332, 0x8D305A88, 0xA2983131, 0x340737E0]).1 =
    #v[0x1D842539, 0xFB09DC02, 0x978511DC, 0x320B6A19]

/-- ROUND n (n in 1..9) and FINAL_ROUND, with SCHED_VALID = 1, go on and equal their stepwise sequences, and
ENCRYPT, in every state, equals its stepwise sequence of 14 commands (43_cipher_control.md section 3, which the
spec marks "derived: from rule R190, rule R195, rule R196, rule R197"). They are compared on the whole state. -/
def Obligations.StepwiseCommandsComposeToRoundAndEncrypt : Prop :=
  (∀ (s : State) (n : Fin 10), n ≠ 0 → s.schedValid = true →
    let m := BitVec.ofNat 4 n.val
    ∃ t, exec (.round m) s = .next t ∧
      execAll [.subBytes, .shiftRows, .mixColumns, .addRoundKey m] s = some t ∧
      t = { s with state := t.state }) ∧
  (∀ s : State, s.schedValid = true →
    ∃ t, exec .finalRound s = .next t ∧
      execAll [.subBytes, .shiftRows, .addRoundKey 10] s = some t ∧
      t = { s with state := t.state }) ∧
  (∀ s : State,
    ∃ t, exec .encrypt s = .next t ∧
      execAll [.expandKey, .loadBlock, .addRoundKey 0, .round 1, .round 2, .round 3, .round 4, .round 5,
        .round 6, .round 7, .round 8, .round 9, .finalRound, .storeBlock] s = some t ∧
      t = { s with rk := t.rk, schedValid := true, state := t.state, dout := t.state })

/-- GEN_TABLES with HAS_TABLES = 1 goes on, writes every entry of the four tables and TABLES_VALID, and nothing
else: T0[i] is the mixed column of (SBOX[i], 0, 0, 0), and T1, T2, T3 are its rotations by 3, 2, 1 byte
positions, so Tk[i] is the mixed column of the column with SBOX[i] at row k (44_table_accelerator.md section 1;
"The reading is the spec's own", log 16). -/
def Obligations.GenTablesWritesTheFusedTables : Prop :=
  (∀ s : State, s.capTables = true →
    ∃ t, exec .genTables s = .next t ∧
      t = { s with t0 := t.t0, t1 := t.t1, t2 := t.t2, t3 := t.t3, tablesValid := true } ∧
      ∀ i : Fin 256,
        let e := sbox (BitVec.ofFin i)
        t.t0[i] = mixColumn (pack e 0 0 0) ∧
        t.t0[i] = pack (xtime e) e e (mul3 e) ∧
        t.t1[i] = rotBytes t.t0[i] 3 ∧ t.t1[i] = pack (mul3 e) (xtime e) e e ∧
        t.t2[i] = rotBytes t.t0[i] 2 ∧ t.t2[i] = pack e (mul3 e) (xtime e) e ∧
        t.t3[i] = rotBytes t.t0[i] 1 ∧ t.t3[i] = pack e e (mul3 e) (xtime e) ∧
        t.t1[i] = mixColumn (pack 0 e 0 0) ∧ t.t2[i] = mixColumn (pack 0 0 e 0) ∧
        t.t3[i] = mixColumn (pack 0 0 0 e)) ∧
  genT0[0] = 0xA56363C6 ∧ genT1[0] = 0x6363C6A5 ∧ genT2[0] = 0x63C6A563 ∧ genT3[0] = 0xC6A56363

/-- T_ROUND n with n in 1..9, HAS_TABLES, TABLES_VALID and SCHED_VALID goes on: each column of STATE becomes
the XOR of four table entries and the round-key word, and nothing else changes (R222). -/
def Obligations.TRoundLooksUpFourTables : Prop :=
  ∀ (s : State) (n : Fin 10), n ≠ 0 →
    s.capTables = true → s.tablesValid = true → s.schedValid = true →
    ∃ t, exec (.tRound (BitVec.ofNat 4 n.val)) s = .next t ∧
      (∀ c : Fin 4, t.state[c] =
        s.t0[(lane s.state 0 c).toFin] ^^^ s.t1[(lane s.state 1 (c + 1)).toFin] ^^^
        s.t2[(lane s.state 2 (c + 2)).toFin] ^^^ s.t3[(lane s.state 3 (c + 3)).toFin] ^^^
        s.rk[4 * n.val + c.val]) ∧
      t = { s with state := t.state }

/-- The table round is exact: with the generated tables, for every STATE, every schedule and every n it
is AddRoundKey of MixColumns of ShiftRows of SubBytes, so T_ROUND n is ROUND n (44_table_accelerator.md section
2, which the spec marks "derived: from rule R220, rule R221, rule R222"). -/
def Obligations.TableRoundIsExact : Prop :=
  (∀ s : State, s.t0 = genT0 → s.t1 = genT1 → s.t2 = genT2 → s.t3 = genT3 →
    ∀ (W : KeySchedule) (S : Block) (n : Fin 11),
      tableRound s W S n = addRoundKey W (mixColumns (shiftRows (subBytes S))) n) ∧
  (∀ (s : State) (n : Fin 10), n ≠ 0 → s.Inv → s.tablesValid = true → s.schedValid = true →
    ∃ t, exec (.tRound (BitVec.ofNat 4 n.val)) s = .next t ∧ exec (.round (BitVec.ofNat 4 n.val)) s = .next t)

/-- ENCRYPT_T with HAS_TABLES and TABLES_VALID goes on, whatever SCHED_VALID is: it writes RK and SCHED_VALID
from KEY, and STATE and DOUT with one value, and nothing else; where T0..T3 hold the generated tables, every
register ends as ENCRYPT would leave it (44_table_accelerator.md section 3, ENCRYPT_T). -/
def Obligations.EncryptTGivesWhatEncryptGives : Prop :=
  (∀ s : State, s.capTables = true → s.tablesValid = true →
    ∃ t, exec .encryptT s = .next t ∧
      t = { s with rk := keyExpansion s.key, schedValid := true, state := t.dout, dout := t.dout }) ∧
  (∀ s : State, s.Inv → s.tablesValid = true →
    ∃ t, exec .encryptT s = .next t ∧ exec .encrypt s = .next t)

/-- CLR_ERR clears ERR and ERR_OVF, in every state, and changes nothing else; and while it is pending, errors
of refused accesses are recorded and then cleared by its completion (43_cipher_control.md section 2,
CLR_ERR). -/
def Obligations.ClrErrClearsTheErrorReport : Prop :=
  (∀ s : State, exec .clrErr s = .next { s with err := .none, errOvf := false }) ∧
  (∀ (s : State) (off : Offset) (v : Word) (rest : List Action),
    s.pending = some 0x00000010 → s.actions = .hostWrite off 4 v :: .complete :: rest →
    runSteps 2 s = .next { s with
      actions := rest, pending := none, done := true, err := .none, errOvf := false })

/-- A checked command whose own check fails is turned away by `exec` with the code recorded, DONE 1 and
nothing else. No reachable state does so, because Check has passed at issue: the model's choice, log 10. -/
def Obligations.FailingFormsAreTurnedAway : Prop :=
  ∀ (s : State) (i : Instr), checkInstr i s ≠ .none →
    exec i s = .next (if s.err = .none then { s with done := true, err := checkInstr i s }
      else { s with done := true, errOvf := true })

/-! ### Whole-machine rules -/

/-- The engine never stops: every step from every state answers a next state (93_implementation_defined.md
part 1; 60_exceptions.md section 1). -/
def Obligations.EveryStepHasANextState : Prop :=
  ∀ s : State, ∃ t, step s = .next t

/-- A command that was accepted completes without error: its own effect takes place and the error report is
as before, but for CLR_ERR (60_exceptions.md section 1; 30_encoding.md section 3). -/
def Obligations.AcceptedCommandsCompleteWithoutError : Prop :=
  ∀ s : State, s.Inv → s.completesNext → s.busy = true →
    ∃ (i : Instr) (t : State), s.completes i ∧ checkInstr i s = .none ∧ step s = .next t ∧
      ((i ≠ .clrErr ∧ t.err = s.err ∧ t.errOvf = s.errOvf) ∨
        (i = .clrErr ∧ t.err = .none ∧ t.errOvf = false))

/-- Every command, in every state, changes only the window words that the "written by" column of R20's table
gives it, as the host reads them; STATUS apart, whose fields the other statements cover (10_state.md section
1). This is the frame of every command on everything the host can read. -/
def Obligations.CommandsChangeOnlyTheirWindowWords : Prop :=
  ∀ (i : Instr) (s t : State) (off : Offset), exec i s = .next t →
    windowTarget s.capTables off ≠ .status →
    mayWrite i (windowTarget s.capTables off) = false →
    t.readWindow off = s.readWindow off

/-- The invariant holds right after reset. -/
def Obligations.ResetMeetsTheInvariant : Prop :=
  State.reset.Inv

/-- Every step from a state that meets the invariant ends in a state that meets it: the pending command stays
one Check accepts and stands in CMD, SCHED_VALID means RK is the schedule of KEY, TABLES_VALID means T0..T3
are the generated tables and the accelerator is present, RESULT stays a byte, ERR_OVF comes after an error. -/
def Obligations.EveryStepKeepsTheInvariant : Prop :=
  ∀ s t : State, s.Inv → step s = .next t → t.Inv

/-- The state after reset: every register the spec gives a reset value has it, and STATUS reads 0x00010000
(70_reset_and_hazards.md section 1). RK and T0..T3 are unspecified there and not named. -/
def Obligations.ResetStateHasTheSpecValues : Prop :=
  let r := State.reset
  (∀ c : Fin 4, r.key[c] = 0 ∧ r.din[c] = 0 ∧ r.dout[c] = 0 ∧ r.state[c] = 0) ∧
  r.result = 0 ∧ r.cmd = 0 ∧ r.pending = none ∧ r.busy = false ∧ r.done = false ∧
  r.schedValid = false ∧ r.tablesValid = false ∧ r.err = .none ∧ r.errOvf = false ∧
  r.statusRead = 0x00010000

/-- The reset input, in every state, a command pending or not: the registers take their reset values, the
pending command is discarded, CAP_TABLES keeps its value, and STATUS reads 0x00010000 or 0x00000000; the host's
other actions and what it has read are not touched (70_reset_and_hazards.md sections 1 and 4). -/
def Obligations.ResetInputGivesTheResetState : Prop :=
  ∀ (s : State) (rest : List Action), s.actions = .reset :: rest →
    ∃ t, step s = .next t ∧
      (∀ c : Fin 4, t.key[c] = 0 ∧ t.din[c] = 0 ∧ t.dout[c] = 0 ∧ t.state[c] = 0) ∧
      t.result = 0 ∧ t.cmd = 0 ∧ t.pending = none ∧ t.done = false ∧ t.schedValid = false ∧
      t.tablesValid = false ∧ t.err = .none ∧ t.errOvf = false ∧ t.capTables = s.capTables ∧
      t.statusRead = (if s.capTables then 0x00010000 else 0x00000000) ∧
      t.actions = rest ∧ t.returned = s.returned

/-- No rule observes the unspecified contents of RK and T0..T3: two states that differ only in them, while
they are not valid, and in which draw the next reset takes, step to states that again differ only so, and
every read returns the same value in both (70_reset_and_hazards.md section 1, which the spec marks "derived: from
rule R280"). -/
def Obligations.UnspecifiedContentsAreInvisible : Prop :=
  (∀ s t s' t' : State, SameView s t → step s = .next s' → step t = .next t' → SameView s' t') ∧
  (∀ (s t : State) (off : Offset), SameView s t → s.readWindow off = t.readWindow off)

/-- While a command is pending, any number of host accesses leaves it, its inputs and every register as they
are; they touch only the error report and what the host has read (20_memory.md sections 3 and 6). -/
def Obligations.AccessesDoNotDisturbAPendingCommand : Prop :=
  ∀ (accesses rest : List Action) (s : State) (w : Word),
    (∀ a ∈ accesses, a.isAccess = true) → s.pending = some w → s.actions = accesses ++ rest →
    ∃ t, runSteps accesses.length s = .next t ∧
      t = { s with actions := rest, returned := t.returned, err := t.err, errOvf := t.errOvf }

/-- A host that polls STATUS until BUSY = 0 ends in the same registers however many polls still saw BUSY = 1:
whatever point the completion is taken at (70_reset_and_hazards.md sections 3 and 5). The step from the state
with no action listed is the forced completion of log 4. -/
def Obligations.PollingHidesTheCompletionPoint : Prop :=
  ∀ (polls : Nat) (s t : State), s.actions = [] → s.busy = true → step s = .next t →
    runSteps (polls + 2) { s with actions := HostProgram.wait polls } =
      .next { t with returned := t.statusRead :: (List.replicate polls s.statusRead ++ s.returned) }

/-- Every run of a finite host program reaches its end: once each action has had its turn and one more step
is taken, no action is left and BUSY = 0 (70_reset_and_hazards.md sections 4 and 5). That one more step is the
forced completion, or the idle step where nothing is pending: the model's own reading of "A pending command
completes after finitely many steps" (log 4, DEDUCED). -/
def Obligations.EveryHostProgramReachesItsEnd : Prop :=
  ∀ s : State, ∃ t, runSteps (s.actions.length + 1) s = .next t ∧ t.finished

/-! ### The pure functions -/

/-- Byte r of a word is its bits 8r+7..8r, byte 0 in the low-order position, and pack puts four bytes back
(R12). -/
def Obligations.PackAndByteAreInverse : Prop :=
  (∀ (w : Word) (r : Fin 4), (byte w r.val).toNat = w.toNat / 2 ^ (8 * r.val) % 256) ∧
  (∀ b0 b1 b2 b3 : Byte, (pack b0 b1 b2 b3).toNat =
    b0.toNat + 256 * b1.toNat + 65536 * b2.toNat + 16777216 * b3.toNat) ∧
  (∀ w : Word, pack (byte w 0) (byte w 1) (byte w 2) (byte w 3) = w)

/-- The corner cases of xtime: 0 is its only zero, the reductions at 0x80 and 0xFF, a bijection on bytes, and
its first eight powers of x (40_field_and_sbox.md section 1, "all derived from rule R121"). -/
def Obligations.XtimeCornerCases : Prop :=
  (∀ a : Byte, xtime a = 0 ↔ a = 0) ∧ xtime 0x7F = 0xFE ∧ xtime 0x80 = 0x1B ∧ xtime 0xFF = 0xE5 ∧
  Function.Bijective xtime ∧ (∀ a : Byte, a.toNat ≤ 0x7F ↔ a.getLsbD 7 = false) ∧
  (List.range 8).map (fun k => Nat.iterate xtime (k + 1) 0x01) =
    [0x02, 0x04, 0x08, 0x10, 0x20, 0x40, 0x80, 0x1B]

/-- The S-box is a permutation with no fixed point and no opposite fixed point, with its corner entries
(40_field_and_sbox.md section 2, properties the spec marks "derived: from rule R124"; log 15). -/
def Obligations.SboxIsAPermutationWithoutFixedPoints : Prop :=
  Function.Bijective sbox ∧ (∀ a : Byte, sbox a ≠ a) ∧ (∀ a : Byte, sbox a ≠ a ^^^ 0xFF) ∧
  sbox 0x00 = 0x63 ∧ sbox 0x01 = 0x7C ∧ sbox 0xFF = 0x16

/-- RotWord as a number is a rotation right by 8 bits; RotBytes moves byte r + k to byte r; SubWord is the
S-box on each byte (40_field_and_sbox.md section 3; the rotations as numbers and by k are marked "derived: from
rule R127"). -/
def Obligations.WordHelpersMoveBytes : Prop :=
  (∀ w : Word, rotWord w = pack (byte w 1) (byte w 2) (byte w 3) (byte w 0) ∧
    rotWord w = (w >>> 8) ||| (w <<< 24)) ∧ rotWord 0x0F0E0D0C = 0x0C0F0E0D ∧
  (∀ (w : Word) (k : Nat), rotBytes w 0 = w ∧ rotBytes w (k + 1) = rotWord (rotBytes w k)) ∧
  (∀ (w : Word) (k : Nat) (r : Fin 4), byte (rotBytes w k) r.val = byte w ((r.val + k) % 4)) ∧
  (∀ (w : Word) (r : Fin 4), byte (subWord w) r.val = sbox (byte w r.val)) ∧ subWord 0 = 0x63636363

/-- MixColumn is linear over XOR and leaves a column of four equal bytes unchanged (42_round_transforms.md
section 3, MIX_COLUMNS). -/
def Obligations.MixColumnIsLinear : Prop :=
  (∀ u v : Word, mixColumn (u ^^^ v) = mixColumn u ^^^ mixColumn v) ∧
  (∀ a : Byte, mixColumn (pack a a a a) = pack a a a a)

/-- SubBytes commutes with ShiftRows, and two AddRoundKey with the same n cancel (42_round_transforms.md
section 3, SUB_BYTES and ADD_ROUND_KEY). -/
def Obligations.RoundTransformsCommuteAndCancel : Prop :=
  (∀ S : Block, subBytes (shiftRows S) = shiftRows (subBytes S)) ∧
  (∀ (W : KeySchedule) (S : Block) (n : Fin 11), addRoundKey W (addRoundKey W S n) n = S)
end

