-- ==== Sys2Proof/Laws/Decode.lean ====
section
/-! SUPPORT. The four fields of a command word, on the number the word is, and words with equal fields
(30_encoding.md R90). -/

namespace Sys2Proof

theorem opcField_toNat (v : Word) : (opcField v).toNat = v.toNat % 256 := by
  simp [opcField, BitVec.extractLsb'_toNat]

theorem argField_toNat (v : Word) : (argField v).toNat = v.toNat / 256 % 256 := by
  simp [argField, BitVec.extractLsb'_toNat, Nat.shiftRight_eq_div_pow]

theorem rndField_toNat (v : Word) : (rndField v).toNat = v.toNat / 65536 % 16 := by
  simp [rndField, BitVec.extractLsb'_toNat, Nat.shiftRight_eq_div_pow]

theorem rsvField_toNat (v : Word) : (rsvField v).toNat = v.toNat / 1048576 := by
  have := v.isLt
  simp [rsvField, BitVec.extractLsb'_toNat, Nat.shiftRight_eq_div_pow]
  omega

/-- Two words with equal fields are equal. -/
theorem word_ext_fields {v w : Word} (ho : opcField v = opcField w) (ha : argField v = argField w)
    (hn : rndField v = rndField w) (hr : rsvField v = rsvField w) : v = w := by
  apply BitVec.eq_of_toNat_eq
  have o := opcField_toNat v ▸ opcField_toNat w ▸ congrArg BitVec.toNat ho
  have a := argField_toNat v ▸ argField_toNat w ▸ congrArg BitVec.toNat ha
  have n := rndField_toNat v ▸ rndField_toNat w ▸ congrArg BitVec.toNat hn
  have r := rsvField_toNat v ▸ rsvField_toNat w ▸ congrArg BitVec.toNat hr
  omega

/-- The opcode map names a command exactly by its opcode and the operand fields the opcode uses. -/
theorem instrOfOpcode_eq_some {opc : Nat} {arg : Byte} {rnd : BitVec 4} {i : Instr}
    (h : instrOfOpcode opc arg rnd = some i) :
    opc = i.opcode.toNat ∧
      i.argOperand = (if usesArg i.opcode then arg else 0) ∧
      i.rndOperand = (if usesRnd i.opcode then rnd else 0) := by
  unfold instrOfOpcode at h
  split at h <;> simp at h <;> subst h <;>
    simp [Instr.opcode, usesArg, usesRnd, Instr.argOperand, Instr.rndOperand]

end Sys2Proof
end

