-- ==== Sys2Proof/Laws/State.lean ====
section
/-! SUPPORT. One lemma per field per named update of the state, true by unfolding the update once. -/

namespace Sys2Proof.Machine

/-! ### Recording an error and rejecting a command word -/

@[simp] theorem State.recordError_key (code : ErrCode) (s : State) :
    (State.recordError code s).key = s.key := by unfold State.recordError; split <;> rfl
@[simp] theorem State.recordError_din (code : ErrCode) (s : State) :
    (State.recordError code s).din = s.din := by unfold State.recordError; split <;> rfl
@[simp] theorem State.recordError_dout (code : ErrCode) (s : State) :
    (State.recordError code s).dout = s.dout := by unfold State.recordError; split <;> rfl
@[simp] theorem State.recordError_state (code : ErrCode) (s : State) :
    (State.recordError code s).state = s.state := by unfold State.recordError; split <;> rfl
@[simp] theorem State.recordError_result (code : ErrCode) (s : State) :
    (State.recordError code s).result = s.result := by unfold State.recordError; split <;> rfl
@[simp] theorem State.recordError_cmd (code : ErrCode) (s : State) :
    (State.recordError code s).cmd = s.cmd := by unfold State.recordError; split <;> rfl
@[simp] theorem State.recordError_pending (code : ErrCode) (s : State) :
    (State.recordError code s).pending = s.pending := by unfold State.recordError; split <;> rfl
@[simp] theorem State.recordError_rk (code : ErrCode) (s : State) :
    (State.recordError code s).rk = s.rk := by unfold State.recordError; split <;> rfl
@[simp] theorem State.recordError_t0 (code : ErrCode) (s : State) :
    (State.recordError code s).t0 = s.t0 := by unfold State.recordError; split <;> rfl
@[simp] theorem State.recordError_t1 (code : ErrCode) (s : State) :
    (State.recordError code s).t1 = s.t1 := by unfold State.recordError; split <;> rfl
@[simp] theorem State.recordError_t2 (code : ErrCode) (s : State) :
    (State.recordError code s).t2 = s.t2 := by unfold State.recordError; split <;> rfl
@[simp] theorem State.recordError_t3 (code : ErrCode) (s : State) :
    (State.recordError code s).t3 = s.t3 := by unfold State.recordError; split <;> rfl
@[simp] theorem State.recordError_schedValid (code : ErrCode) (s : State) :
    (State.recordError code s).schedValid = s.schedValid := by unfold State.recordError; split <;> rfl
@[simp] theorem State.recordError_tablesValid (code : ErrCode) (s : State) :
    (State.recordError code s).tablesValid = s.tablesValid := by unfold State.recordError; split <;> rfl
@[simp] theorem State.recordError_done (code : ErrCode) (s : State) :
    (State.recordError code s).done = s.done := by unfold State.recordError; split <;> rfl
@[simp] theorem State.recordError_capTables (code : ErrCode) (s : State) :
    (State.recordError code s).capTables = s.capTables := by unfold State.recordError; split <;> rfl
@[simp] theorem State.recordError_actions (code : ErrCode) (s : State) :
    (State.recordError code s).actions = s.actions := by unfold State.recordError; split <;> rfl
@[simp] theorem State.recordError_returned (code : ErrCode) (s : State) :
    (State.recordError code s).returned = s.returned := by unfold State.recordError; split <;> rfl
@[simp] theorem State.recordError_resets (code : ErrCode) (s : State) :
    (State.recordError code s).resets = s.resets := by unfold State.recordError; split <;> rfl
@[simp] theorem State.recordError_err (code : ErrCode) (s : State) :
    (State.recordError code s).err = if s.err = .none then code else s.err := by
  unfold State.recordError; split <;> rfl
@[simp] theorem State.recordError_errOvf (code : ErrCode) (s : State) :
    (State.recordError code s).errOvf = if s.err = .none then s.errOvf else true := by
  unfold State.recordError; split <;> rfl

@[simp] theorem State.rejectCommand_key (code : ErrCode) (s : State) :
    (State.rejectCommand code s).key = s.key := by simp [State.rejectCommand]
@[simp] theorem State.rejectCommand_din (code : ErrCode) (s : State) :
    (State.rejectCommand code s).din = s.din := by simp [State.rejectCommand]
@[simp] theorem State.rejectCommand_dout (code : ErrCode) (s : State) :
    (State.rejectCommand code s).dout = s.dout := by simp [State.rejectCommand]
@[simp] theorem State.rejectCommand_state (code : ErrCode) (s : State) :
    (State.rejectCommand code s).state = s.state := by simp [State.rejectCommand]
@[simp] theorem State.rejectCommand_result (code : ErrCode) (s : State) :
    (State.rejectCommand code s).result = s.result := by simp [State.rejectCommand]
@[simp] theorem State.rejectCommand_cmd (code : ErrCode) (s : State) :
    (State.rejectCommand code s).cmd = s.cmd := by simp [State.rejectCommand]
@[simp] theorem State.rejectCommand_pending (code : ErrCode) (s : State) :
    (State.rejectCommand code s).pending = s.pending := by simp [State.rejectCommand]
@[simp] theorem State.rejectCommand_rk (code : ErrCode) (s : State) :
    (State.rejectCommand code s).rk = s.rk := by simp [State.rejectCommand]
@[simp] theorem State.rejectCommand_t0 (code : ErrCode) (s : State) :
    (State.rejectCommand code s).t0 = s.t0 := by simp [State.rejectCommand]
@[simp] theorem State.rejectCommand_t1 (code : ErrCode) (s : State) :
    (State.rejectCommand code s).t1 = s.t1 := by simp [State.rejectCommand]
@[simp] theorem State.rejectCommand_t2 (code : ErrCode) (s : State) :
    (State.rejectCommand code s).t2 = s.t2 := by simp [State.rejectCommand]
@[simp] theorem State.rejectCommand_t3 (code : ErrCode) (s : State) :
    (State.rejectCommand code s).t3 = s.t3 := by simp [State.rejectCommand]
@[simp] theorem State.rejectCommand_schedValid (code : ErrCode) (s : State) :
    (State.rejectCommand code s).schedValid = s.schedValid := by simp [State.rejectCommand]
@[simp] theorem State.rejectCommand_tablesValid (code : ErrCode) (s : State) :
    (State.rejectCommand code s).tablesValid = s.tablesValid := by simp [State.rejectCommand]
@[simp] theorem State.rejectCommand_done (code : ErrCode) (s : State) :
    (State.rejectCommand code s).done = true := by simp [State.rejectCommand]
@[simp] theorem State.rejectCommand_capTables (code : ErrCode) (s : State) :
    (State.rejectCommand code s).capTables = s.capTables := by simp [State.rejectCommand]
@[simp] theorem State.rejectCommand_actions (code : ErrCode) (s : State) :
    (State.rejectCommand code s).actions = s.actions := by simp [State.rejectCommand]
@[simp] theorem State.rejectCommand_returned (code : ErrCode) (s : State) :
    (State.rejectCommand code s).returned = s.returned := by simp [State.rejectCommand]
@[simp] theorem State.rejectCommand_resets (code : ErrCode) (s : State) :
    (State.rejectCommand code s).resets = s.resets := by simp [State.rejectCommand]
@[simp] theorem State.rejectCommand_err (code : ErrCode) (s : State) :
    (State.rejectCommand code s).err = if s.err = .none then code else s.err := by
  simp [State.rejectCommand]
@[simp] theorem State.rejectCommand_errOvf (code : ErrCode) (s : State) :
    (State.rejectCommand code s).errOvf = if s.err = .none then s.errOvf else true := by
  simp [State.rejectCommand]

/-! ### Clearing the error report -/

@[simp] theorem State.clearErrors_key (s : State) : s.clearErrors.key = s.key := rfl
@[simp] theorem State.clearErrors_din (s : State) : s.clearErrors.din = s.din := rfl
@[simp] theorem State.clearErrors_dout (s : State) : s.clearErrors.dout = s.dout := rfl
@[simp] theorem State.clearErrors_state (s : State) : s.clearErrors.state = s.state := rfl
@[simp] theorem State.clearErrors_result (s : State) : s.clearErrors.result = s.result := rfl
@[simp] theorem State.clearErrors_cmd (s : State) : s.clearErrors.cmd = s.cmd := rfl
@[simp] theorem State.clearErrors_pending (s : State) : s.clearErrors.pending = s.pending := rfl
@[simp] theorem State.clearErrors_rk (s : State) : s.clearErrors.rk = s.rk := rfl
@[simp] theorem State.clearErrors_t0 (s : State) : s.clearErrors.t0 = s.t0 := rfl
@[simp] theorem State.clearErrors_t1 (s : State) : s.clearErrors.t1 = s.t1 := rfl
@[simp] theorem State.clearErrors_t2 (s : State) : s.clearErrors.t2 = s.t2 := rfl
@[simp] theorem State.clearErrors_t3 (s : State) : s.clearErrors.t3 = s.t3 := rfl
@[simp] theorem State.clearErrors_schedValid (s : State) : s.clearErrors.schedValid = s.schedValid := rfl
@[simp] theorem State.clearErrors_tablesValid (s : State) : s.clearErrors.tablesValid = s.tablesValid := rfl
@[simp] theorem State.clearErrors_done (s : State) : s.clearErrors.done = s.done := rfl
@[simp] theorem State.clearErrors_errOvf (s : State) : s.clearErrors.errOvf = false := rfl
@[simp] theorem State.clearErrors_err (s : State) : s.clearErrors.err = .none := rfl
@[simp] theorem State.clearErrors_capTables (s : State) : s.clearErrors.capTables = s.capTables := rfl
@[simp] theorem State.clearErrors_actions (s : State) : s.clearErrors.actions = s.actions := rfl
@[simp] theorem State.clearErrors_returned (s : State) : s.clearErrors.returned = s.returned := rfl
@[simp] theorem State.clearErrors_resets (s : State) : s.clearErrors.resets = s.resets := rfl

/-! ### Accepting a command word -/

@[simp] theorem State.acceptCommand_key (v : Word) (s : State) :
    (State.acceptCommand v s).key = s.key := rfl
@[simp] theorem State.acceptCommand_din (v : Word) (s : State) :
    (State.acceptCommand v s).din = s.din := rfl
@[simp] theorem State.acceptCommand_dout (v : Word) (s : State) :
    (State.acceptCommand v s).dout = s.dout := rfl
@[simp] theorem State.acceptCommand_state (v : Word) (s : State) :
    (State.acceptCommand v s).state = s.state := rfl
@[simp] theorem State.acceptCommand_result (v : Word) (s : State) :
    (State.acceptCommand v s).result = s.result := rfl
@[simp] theorem State.acceptCommand_cmd (v : Word) (s : State) :
    (State.acceptCommand v s).cmd = s.cmd := rfl
@[simp] theorem State.acceptCommand_pending (v : Word) (s : State) :
    (State.acceptCommand v s).pending = some v := rfl
@[simp] theorem State.acceptCommand_rk (v : Word) (s : State) :
    (State.acceptCommand v s).rk = s.rk := rfl
@[simp] theorem State.acceptCommand_t0 (v : Word) (s : State) :
    (State.acceptCommand v s).t0 = s.t0 := rfl
@[simp] theorem State.acceptCommand_t1 (v : Word) (s : State) :
    (State.acceptCommand v s).t1 = s.t1 := rfl
@[simp] theorem State.acceptCommand_t2 (v : Word) (s : State) :
    (State.acceptCommand v s).t2 = s.t2 := rfl
@[simp] theorem State.acceptCommand_t3 (v : Word) (s : State) :
    (State.acceptCommand v s).t3 = s.t3 := rfl
@[simp] theorem State.acceptCommand_schedValid (v : Word) (s : State) :
    (State.acceptCommand v s).schedValid = s.schedValid := rfl
@[simp] theorem State.acceptCommand_tablesValid (v : Word) (s : State) :
    (State.acceptCommand v s).tablesValid = s.tablesValid := rfl
@[simp] theorem State.acceptCommand_done (v : Word) (s : State) :
    (State.acceptCommand v s).done = false := rfl
@[simp] theorem State.acceptCommand_errOvf (v : Word) (s : State) :
    (State.acceptCommand v s).errOvf = s.errOvf := rfl
@[simp] theorem State.acceptCommand_err (v : Word) (s : State) :
    (State.acceptCommand v s).err = s.err := rfl
@[simp] theorem State.acceptCommand_capTables (v : Word) (s : State) :
    (State.acceptCommand v s).capTables = s.capTables := rfl
@[simp] theorem State.acceptCommand_actions (v : Word) (s : State) :
    (State.acceptCommand v s).actions = s.actions := rfl
@[simp] theorem State.acceptCommand_returned (v : Word) (s : State) :
    (State.acceptCommand v s).returned = s.returned := rfl
@[simp] theorem State.acceptCommand_resets (v : Word) (s : State) :
    (State.acceptCommand v s).resets = s.resets := rfl

/-! ### Finishing a command -/

@[simp] theorem State.finishCommand_key (s : State) : s.finishCommand.key = s.key := rfl
@[simp] theorem State.finishCommand_din (s : State) : s.finishCommand.din = s.din := rfl
@[simp] theorem State.finishCommand_dout (s : State) : s.finishCommand.dout = s.dout := rfl
@[simp] theorem State.finishCommand_state (s : State) : s.finishCommand.state = s.state := rfl
@[simp] theorem State.finishCommand_result (s : State) : s.finishCommand.result = s.result := rfl
@[simp] theorem State.finishCommand_cmd (s : State) : s.finishCommand.cmd = s.cmd := rfl
@[simp] theorem State.finishCommand_pending (s : State) : s.finishCommand.pending = none := rfl
@[simp] theorem State.finishCommand_rk (s : State) : s.finishCommand.rk = s.rk := rfl
@[simp] theorem State.finishCommand_t0 (s : State) : s.finishCommand.t0 = s.t0 := rfl
@[simp] theorem State.finishCommand_t1 (s : State) : s.finishCommand.t1 = s.t1 := rfl
@[simp] theorem State.finishCommand_t2 (s : State) : s.finishCommand.t2 = s.t2 := rfl
@[simp] theorem State.finishCommand_t3 (s : State) : s.finishCommand.t3 = s.t3 := rfl
@[simp] theorem State.finishCommand_schedValid (s : State) : s.finishCommand.schedValid = s.schedValid := rfl
@[simp] theorem State.finishCommand_tablesValid (s : State) : s.finishCommand.tablesValid = s.tablesValid := rfl
@[simp] theorem State.finishCommand_done (s : State) : s.finishCommand.done = true := rfl
@[simp] theorem State.finishCommand_errOvf (s : State) : s.finishCommand.errOvf = s.errOvf := rfl
@[simp] theorem State.finishCommand_err (s : State) : s.finishCommand.err = s.err := rfl
@[simp] theorem State.finishCommand_capTables (s : State) : s.finishCommand.capTables = s.capTables := rfl
@[simp] theorem State.finishCommand_actions (s : State) : s.finishCommand.actions = s.actions := rfl
@[simp] theorem State.finishCommand_returned (s : State) : s.finishCommand.returned = s.returned := rfl
@[simp] theorem State.finishCommand_resets (s : State) : s.finishCommand.resets = s.resets := rfl

/-! ### A host write to KEY -/

@[simp] theorem State.writeKey_key (j : Fin 4) (v : Word) (s : State) :
    (State.writeKey j v s).key = s.key.set j v := rfl
@[simp] theorem State.writeKey_din (j : Fin 4) (v : Word) (s : State) :
    (State.writeKey j v s).din = s.din := rfl
@[simp] theorem State.writeKey_dout (j : Fin 4) (v : Word) (s : State) :
    (State.writeKey j v s).dout = s.dout := rfl
@[simp] theorem State.writeKey_state (j : Fin 4) (v : Word) (s : State) :
    (State.writeKey j v s).state = s.state := rfl
@[simp] theorem State.writeKey_result (j : Fin 4) (v : Word) (s : State) :
    (State.writeKey j v s).result = s.result := rfl
@[simp] theorem State.writeKey_cmd (j : Fin 4) (v : Word) (s : State) :
    (State.writeKey j v s).cmd = s.cmd := rfl
@[simp] theorem State.writeKey_pending (j : Fin 4) (v : Word) (s : State) :
    (State.writeKey j v s).pending = s.pending := rfl
@[simp] theorem State.writeKey_rk (j : Fin 4) (v : Word) (s : State) :
    (State.writeKey j v s).rk = s.rk := rfl
@[simp] theorem State.writeKey_t0 (j : Fin 4) (v : Word) (s : State) :
    (State.writeKey j v s).t0 = s.t0 := rfl
@[simp] theorem State.writeKey_t1 (j : Fin 4) (v : Word) (s : State) :
    (State.writeKey j v s).t1 = s.t1 := rfl
@[simp] theorem State.writeKey_t2 (j : Fin 4) (v : Word) (s : State) :
    (State.writeKey j v s).t2 = s.t2 := rfl
@[simp] theorem State.writeKey_t3 (j : Fin 4) (v : Word) (s : State) :
    (State.writeKey j v s).t3 = s.t3 := rfl
@[simp] theorem State.writeKey_schedValid (j : Fin 4) (v : Word) (s : State) :
    (State.writeKey j v s).schedValid = false := rfl
@[simp] theorem State.writeKey_tablesValid (j : Fin 4) (v : Word) (s : State) :
    (State.writeKey j v s).tablesValid = s.tablesValid := rfl
@[simp] theorem State.writeKey_done (j : Fin 4) (v : Word) (s : State) :
    (State.writeKey j v s).done = s.done := rfl
@[simp] theorem State.writeKey_errOvf (j : Fin 4) (v : Word) (s : State) :
    (State.writeKey j v s).errOvf = s.errOvf := rfl
@[simp] theorem State.writeKey_err (j : Fin 4) (v : Word) (s : State) :
    (State.writeKey j v s).err = s.err := rfl
@[simp] theorem State.writeKey_capTables (j : Fin 4) (v : Word) (s : State) :
    (State.writeKey j v s).capTables = s.capTables := rfl
@[simp] theorem State.writeKey_actions (j : Fin 4) (v : Word) (s : State) :
    (State.writeKey j v s).actions = s.actions := rfl
@[simp] theorem State.writeKey_returned (j : Fin 4) (v : Word) (s : State) :
    (State.writeKey j v s).returned = s.returned := rfl
@[simp] theorem State.writeKey_resets (j : Fin 4) (v : Word) (s : State) :
    (State.writeKey j v s).resets = s.resets := rfl

/-! ### A host write to DIN -/

@[simp] theorem State.writeDin_key (c : Fin 4) (v : Word) (s : State) :
    (State.writeDin c v s).key = s.key := rfl
@[simp] theorem State.writeDin_din (c : Fin 4) (v : Word) (s : State) :
    (State.writeDin c v s).din = s.din.set c v := rfl
@[simp] theorem State.writeDin_dout (c : Fin 4) (v : Word) (s : State) :
    (State.writeDin c v s).dout = s.dout := rfl
@[simp] theorem State.writeDin_state (c : Fin 4) (v : Word) (s : State) :
    (State.writeDin c v s).state = s.state := rfl
@[simp] theorem State.writeDin_result (c : Fin 4) (v : Word) (s : State) :
    (State.writeDin c v s).result = s.result := rfl
@[simp] theorem State.writeDin_cmd (c : Fin 4) (v : Word) (s : State) :
    (State.writeDin c v s).cmd = s.cmd := rfl
@[simp] theorem State.writeDin_pending (c : Fin 4) (v : Word) (s : State) :
    (State.writeDin c v s).pending = s.pending := rfl
@[simp] theorem State.writeDin_rk (c : Fin 4) (v : Word) (s : State) :
    (State.writeDin c v s).rk = s.rk := rfl
@[simp] theorem State.writeDin_t0 (c : Fin 4) (v : Word) (s : State) :
    (State.writeDin c v s).t0 = s.t0 := rfl
@[simp] theorem State.writeDin_t1 (c : Fin 4) (v : Word) (s : State) :
    (State.writeDin c v s).t1 = s.t1 := rfl
@[simp] theorem State.writeDin_t2 (c : Fin 4) (v : Word) (s : State) :
    (State.writeDin c v s).t2 = s.t2 := rfl
@[simp] theorem State.writeDin_t3 (c : Fin 4) (v : Word) (s : State) :
    (State.writeDin c v s).t3 = s.t3 := rfl
@[simp] theorem State.writeDin_schedValid (c : Fin 4) (v : Word) (s : State) :
    (State.writeDin c v s).schedValid = s.schedValid := rfl
@[simp] theorem State.writeDin_tablesValid (c : Fin 4) (v : Word) (s : State) :
    (State.writeDin c v s).tablesValid = s.tablesValid := rfl
@[simp] theorem State.writeDin_done (c : Fin 4) (v : Word) (s : State) :
    (State.writeDin c v s).done = s.done := rfl
@[simp] theorem State.writeDin_errOvf (c : Fin 4) (v : Word) (s : State) :
    (State.writeDin c v s).errOvf = s.errOvf := rfl
@[simp] theorem State.writeDin_err (c : Fin 4) (v : Word) (s : State) :
    (State.writeDin c v s).err = s.err := rfl
@[simp] theorem State.writeDin_capTables (c : Fin 4) (v : Word) (s : State) :
    (State.writeDin c v s).capTables = s.capTables := rfl
@[simp] theorem State.writeDin_actions (c : Fin 4) (v : Word) (s : State) :
    (State.writeDin c v s).actions = s.actions := rfl
@[simp] theorem State.writeDin_returned (c : Fin 4) (v : Word) (s : State) :
    (State.writeDin c v s).returned = s.returned := rfl
@[simp] theorem State.writeDin_resets (c : Fin 4) (v : Word) (s : State) :
    (State.writeDin c v s).resets = s.resets := rfl

/-! ### The reset input -/

@[simp] theorem State.resetEngine_key (s : State) : s.resetEngine.key = Vector.replicate 4 0 := rfl
@[simp] theorem State.resetEngine_din (s : State) : s.resetEngine.din = Vector.replicate 4 0 := rfl
@[simp] theorem State.resetEngine_dout (s : State) : s.resetEngine.dout = Vector.replicate 4 0 := rfl
@[simp] theorem State.resetEngine_state (s : State) : s.resetEngine.state = Vector.replicate 4 0 := rfl
@[simp] theorem State.resetEngine_result (s : State) : s.resetEngine.result = 0 := rfl
@[simp] theorem State.resetEngine_cmd (s : State) : s.resetEngine.cmd = 0 := rfl
@[simp] theorem State.resetEngine_pending (s : State) : s.resetEngine.pending = none := rfl
@[simp] theorem State.resetEngine_rk (s : State) : s.resetEngine.rk = rkAfterReset (s.resets + 1) := rfl
@[simp] theorem State.resetEngine_t0 (s : State) : s.resetEngine.t0 = tableAfterReset (s.resets + 1) 0 := rfl
@[simp] theorem State.resetEngine_t1 (s : State) : s.resetEngine.t1 = tableAfterReset (s.resets + 1) 1 := rfl
@[simp] theorem State.resetEngine_t2 (s : State) : s.resetEngine.t2 = tableAfterReset (s.resets + 1) 2 := rfl
@[simp] theorem State.resetEngine_t3 (s : State) : s.resetEngine.t3 = tableAfterReset (s.resets + 1) 3 := rfl
@[simp] theorem State.resetEngine_schedValid (s : State) : s.resetEngine.schedValid = false := rfl
@[simp] theorem State.resetEngine_tablesValid (s : State) : s.resetEngine.tablesValid = false := rfl
@[simp] theorem State.resetEngine_done (s : State) : s.resetEngine.done = false := rfl
@[simp] theorem State.resetEngine_errOvf (s : State) : s.resetEngine.errOvf = false := rfl
@[simp] theorem State.resetEngine_err (s : State) : s.resetEngine.err = .none := rfl
@[simp] theorem State.resetEngine_capTables (s : State) : s.resetEngine.capTables = s.capTables := rfl
@[simp] theorem State.resetEngine_actions (s : State) : s.resetEngine.actions = s.actions := rfl
@[simp] theorem State.resetEngine_returned (s : State) : s.resetEngine.returned = s.returned := rfl
@[simp] theorem State.resetEngine_resets (s : State) : s.resetEngine.resets = s.resets + 1 := rfl

end Sys2Proof.Machine
end

