-- ==== Sys2Proof/Laws/Flags.lean ====
section
/-! SUPPORT. The checks of a command, and what a checked command answers. -/

namespace Sys2Proof.Machine

/-- The commands without range or state checks always pass. -/
theorem checkInstr_unchecked {i : Instr} {s : State} (ha : needsAccel i = false) (hw : i.wf = true)
    (ht : needsTables i = false) (hs : needsSched i = false) : checkInstr i s = .none := by
  simp [checkInstr, ha, hw, ht, hs]

/-- What it takes to pass the checks. -/
theorem checkInstr_none_iff (i : Instr) (s : State) :
    checkInstr i s = .none ↔ (needsAccel i = true → s.capTables = true) ∧ i.wf = true ∧
      (needsTables i = true → s.tablesReady = true) ∧ (needsSched i = true → s.schedValid = true) := by
  unfold checkInstr
  cases needsAccel i <;> cases i.wf <;> cases needsTables i <;> cases needsSched i <;>
    cases s.capTables <;> cases s.tablesReady <;> cases s.schedValid <;> simp

theorem performChecked_pass {i : Instr} {s t : State} (h : checkInstr i s = .none) :
    performChecked i s t = .next t := by
  simp [performChecked, h]

theorem performChecked_fail {i : Instr} {s t : State} (h : checkInstr i s ≠ .none) :
    performChecked i s t = .next (s.rejectCommand (checkInstr i s)) := by
  unfold performChecked
  split
  · contradiction
  · rfl

/-- All a checked command can do: its effect, or the rejection with the code of the check that fails. -/
theorem performChecked_cases (i : Instr) (s t : State) :
    (checkInstr i s = .none ∧ performChecked i s t = .next t) ∨
    (checkInstr i s ≠ .none ∧ performChecked i s t = .next (s.rejectCommand (checkInstr i s))) := by
  by_cases h : checkInstr i s = .none
  · exact .inl ⟨h, performChecked_pass h⟩
  · exact .inr ⟨h, performChecked_fail h⟩

/-- Every code but NONE is one the checks can give: a failing check of a decoded command is never an access
error or a decoding error. -/
theorem checkInstr_codes (i : Instr) (s : State) :
    checkInstr i s ∈ [ErrCode.none, .unsupported, .badRound, .noTables, .noSched] := by
  unfold checkInstr
  repeat' split
  all_goals simp

@[simp] theorem State.busy_eq_false (s : State) : s.busy = false ↔ s.pending = none := by
  simp [State.busy]

@[simp] theorem State.busy_eq_true (s : State) : s.busy = true ↔ ∃ w, s.pending = some w := by
  simp [State.busy, Option.isSome_iff_exists]

end Sys2Proof.Machine
end

