-- ==== Sys2Proof/Laws/Exec.lean ====
section
/-! SUPPORT. What every command has in common: it answers a next state and leaves the command lifecycle, the
host's side and the hardwired flag alone. -/

namespace Sys2Proof.Machine

/-- A command that always goes on, as a checked command whose checks pass. -/
theorem exec_unchecked {i : Instr} {s e : State} (h : exec i s = .next e) (hc : checkInstr i s = .none) :
    exec i s = performChecked i s e :=
  h.trans (performChecked_pass hc).symm

/-- The state of a command that passes its checks, as its meaning writes it. -/
theorem exec_checked (i : Instr) (s : State) :
    ∃ e, exec i s = performChecked i s e ∧
      e.cmd = s.cmd ∧ e.pending = s.pending ∧ e.done = s.done ∧ e.capTables = s.capTables ∧
      e.actions = s.actions ∧ e.returned = s.returned ∧ e.resets = s.resets := by
  cases i with
  | addRoundKey n =>
    exact ⟨{ s with state := addRoundKey s.rk s.state (roundGroup n) }, rfl, rfl, rfl, rfl, rfl, rfl, rfl, rfl⟩
  | round n =>
    exact ⟨{ s with state := middleRound s.rk s.state (roundGroup n) }, rfl, rfl, rfl, rfl, rfl, rfl, rfl, rfl⟩
  | finalRound =>
    exact ⟨{ s with state := lastRound s.rk s.state }, rfl, rfl, rfl, rfl, rfl, rfl, rfl, rfl⟩
  | genTables =>
    exact ⟨{ s with t0 := genT0, t1 := genT1, t2 := genT2, t3 := genT3, tablesValid := true },
      rfl, rfl, rfl, rfl, rfl, rfl, rfl, rfl⟩
  | tRound n =>
    exact ⟨{ s with state := tableRound s s.rk s.state (roundGroup n) }, rfl, rfl, rfl, rfl, rfl, rfl, rfl, rfl⟩
  | encryptT =>
    exact ⟨{ s with
        rk := keyExpansion s.key, schedValid := true,
        state := tableCipher s (keyExpansion s.key), dout := tableCipher s (keyExpansion s.key) },
      rfl, rfl, rfl, rfl, rfl, rfl, rfl, rfl⟩
  | _ =>
    exact ⟨_, exec_unchecked rfl (checkInstr_unchecked rfl rfl rfl rfl), rfl, rfl, rfl, rfl, rfl, rfl, rfl⟩

/-- Every command answers a next state, in every state. -/
theorem exec_total (i : Instr) (s : State) : ∃ t, exec i s = .next t := by
  obtain ⟨e, he, -⟩ := exec_checked i s
  rcases performChecked_cases i s e with ⟨-, h⟩ | ⟨-, h⟩ <;> exact ⟨_, he.trans h⟩

/-- No command touches CMD, the pending command, CAP_TABLES, the coming actions, what the host has seen, or
the count of resets. -/
theorem exec_keeps_control {i : Instr} {s t : State} (h : exec i s = .next t) :
    t.cmd = s.cmd ∧ t.pending = s.pending ∧ t.capTables = s.capTables ∧
      t.actions = s.actions ∧ t.returned = s.returned ∧ t.resets = s.resets := by
  obtain ⟨e, he, h1, h2, -, h4, h5, h6, h7⟩ := exec_checked i s
  rcases performChecked_cases i s e with ⟨-, hp⟩ | ⟨-, hp⟩ <;>
    rw [he, hp] at h <;> injection h with h <;> subst h
  · exact ⟨h1, h2, h4, h5, h6, h7⟩
  · simp

/-- All a command can do to the registers that the invariants speak of: it is turned away, or its checks
pass and it sets exactly the flags and tables that are its own. -/
theorem exec_effects {i : Instr} {s t : State} (h : exec i s = .next t) :
    (checkInstr i s ≠ .none ∧ t = s.rejectCommand (checkInstr i s)) ∨
    (checkInstr i s = .none ∧ t.key = s.key ∧ t.din = s.din ∧ t.done = s.done ∧
      ((i = .clrErr ∧ t.err = .none ∧ t.errOvf = false) ∨
        (i ≠ .clrErr ∧ t.err = s.err ∧ t.errOvf = s.errOvf)) ∧
      (((i = .expandKey ∨ i = .encrypt ∨ i = .encryptT) ∧ t.schedValid = true ∧ t.rk = keyExpansion s.key) ∨
        (¬ (i = .expandKey ∨ i = .encrypt ∨ i = .encryptT) ∧ t.schedValid = s.schedValid ∧ t.rk = s.rk)) ∧
      ((i = .genTables ∧ t.tablesValid = true ∧ t.t0 = genT0 ∧ t.t1 = genT1 ∧ t.t2 = genT2 ∧ t.t3 = genT3) ∨
        (i ≠ .genTables ∧ t.tablesValid = s.tablesValid ∧ t.t0 = s.t0 ∧ t.t1 = s.t1 ∧ t.t2 = s.t2 ∧
          t.t3 = s.t3)) ∧
      (t.result = s.result ∨ ∃ b, t.result = zext32 b)) := by
  by_cases hc : checkInstr i s = .none
  · refine .inr ⟨hc, ?_⟩
    cases i <;>
      simp only [exec, execNop, execLoadBlock, execStoreBlock, execExpandKey, execAddRoundKey, execSubBytes,
        execShiftRows, execMixColumns, execRound, execFinalRound, execEncrypt, execXtime, execSbox,
        execGenTables, execTRound, execEncryptT, execClrErr] at h <;>
      (try rw [performChecked_pass hc] at h) <;> injection h with h <;> subst h <;>
      simp [State.clearErrors, cipher]
  · refine .inl ⟨hc, ?_⟩
    obtain ⟨e, he, -⟩ := exec_checked i s
    rw [he, performChecked_fail hc] at h
    injection h with h
    exact h.symm

end Sys2Proof.Machine
end

