-- ==== Sys2Proof/Laws/Operands.lean ====
section
/-! SUPPORT. The register map at each of its offsets, and legal accesses. -/

namespace Sys2Proof.Machine

theorem legalAccess_iff (off : Offset) (n : Nat) : legalAccess off n = true ↔ n = 4 ∧ off.toNat % 4 = 0 := by
  simp [legalAccess]

theorem legalAccess_eq_false (off : Offset) (n : Nat) :
    legalAccess off n = false ↔ n ≠ 4 ∨ off.toNat % 4 ≠ 0 := by
  rw [← Bool.not_eq_true, legalAccess_iff]
  omega

section RegisterMap
variable (cap : Bool) (off : Offset)

theorem windowTarget_cmd (h : off.toNat < 0x0004) : windowTarget cap off = .cmd := by
  unfold windowTarget; dsimp only
  rw [if_pos (by omega)]

theorem windowTarget_status (h : 0x0004 ≤ off.toNat) (h' : off.toNat < 0x0008) :
    windowTarget cap off = .status := by
  unfold windowTarget; dsimp only
  repeat rw [if_neg (by omega)]
  rw [if_pos (by omega)]

theorem windowTarget_result (h : 0x0008 ≤ off.toNat) (h' : off.toNat < 0x000C) :
    windowTarget cap off = .result := by
  unfold windowTarget; dsimp only
  repeat rw [if_neg (by omega)]
  rw [if_pos (by omega)]

theorem windowTarget_id (h : 0x000C ≤ off.toNat) (h' : off.toNat < 0x0010) :
    windowTarget cap off = .id := by
  unfold windowTarget; dsimp only
  repeat rw [if_neg (by omega)]
  rw [if_pos (by omega)]

/-- An index read off an offset. -/
theorem ofNat_index {n : Nat} [NeZero n] {j : Fin n} {m : Nat} (h : m = j.val) : Fin.ofNat n m = j := by
  subst h
  simp

theorem windowTarget_key (j : Fin 4) (h : off.toNat = 0x0010 + 4 * j.val) :
    windowTarget cap off = .key j := by
  unfold windowTarget; dsimp only
  repeat rw [if_neg (by omega)]
  rw [if_pos (by omega)]
  exact congrArg _ (ofNat_index (by omega))

theorem windowTarget_din (c : Fin 4) (h : off.toNat = 0x0020 + 4 * c.val) :
    windowTarget cap off = .din c := by
  unfold windowTarget; dsimp only
  repeat rw [if_neg (by omega)]
  rw [if_pos (by omega)]
  exact congrArg _ (ofNat_index (by omega))

theorem windowTarget_dout (c : Fin 4) (h : off.toNat = 0x0030 + 4 * c.val) :
    windowTarget cap off = .dout c := by
  unfold windowTarget; dsimp only
  repeat rw [if_neg (by omega)]
  rw [if_pos (by omega)]
  exact congrArg _ (ofNat_index (by omega))

theorem windowTarget_state (c : Fin 4) (h : off.toNat = 0x0040 + 4 * c.val) :
    windowTarget cap off = .state c := by
  unfold windowTarget; dsimp only
  repeat rw [if_neg (by omega)]
  rw [if_pos (by omega)]
  exact congrArg _ (ofNat_index (by omega))

theorem windowTarget_rk (k : Fin 44) (h : off.toNat = 0x0100 + 4 * k.val) :
    windowTarget cap off = .rk k := by
  unfold windowTarget; dsimp only
  repeat rw [if_neg (by omega)]
  rw [if_pos (by omega)]
  exact congrArg _ (ofNat_index (by omega))

theorem windowTarget_sbox (i : Fin 256) (h : off.toNat = 0x0400 + 4 * i.val) :
    windowTarget cap off = .sbox i := by
  unfold windowTarget; dsimp only
  repeat rw [if_neg (by omega)]
  rw [if_pos (by omega)]
  exact congrArg _ (ofNat_index (by omega))

theorem windowTarget_table (t : Fin 4) (i : Fin 256) (h : off.toNat = 0x1000 + 0x400 * t.val + 4 * i.val) :
    windowTarget true off = .table t i := by
  unfold windowTarget; dsimp only
  repeat rw [if_neg (by omega)]
  rw [if_pos rfl]
  exact congrArg₂ _ (ofNat_index (by omega)) (ofNat_index (by omega))

theorem windowTarget_unmapped
    (h : (0x0050 ≤ off.toNat ∧ off.toNat < 0x0100) ∨ (0x01B0 ≤ off.toNat ∧ off.toNat < 0x0400) ∨
      (0x0800 ≤ off.toNat ∧ off.toNat < 0x1000)) : windowTarget cap off = .unmapped := by
  unfold windowTarget; dsimp only
  rcases h with h | h | h <;> (repeat rw [if_neg (by omega)]) <;> rw [if_pos (by omega)]

theorem windowTarget_noTables (h : 0x1000 ≤ off.toNat) : windowTarget false off = .unmapped := by
  unfold windowTarget; dsimp only
  repeat rw [if_neg (by omega)]
  rfl

/-- An aligned offset outside CMD, KEY and DIN names none of them. -/
theorem windowTarget_readOnly (h : off.toNat ≠ 0) (h4 : off.toNat % 4 = 0)
    (h' : off.toNat < 0x0010 ∨ 0x0030 ≤ off.toNat) :
    windowTarget cap off ≠ .cmd ∧ (∀ j, windowTarget cap off ≠ .key j) ∧
      ∀ c, windowTarget cap off ≠ .din c := by
  rcases h' with h' | h'
  · rcases Nat.lt_or_ge off.toNat 0x0008 with h1 | h1
    · simp [windowTarget_status cap off (by omega) h1]
    · rcases Nat.lt_or_ge off.toNat 0x000C with h2 | h2
      · simp [windowTarget_result cap off h1 h2]
      · simp [windowTarget_id cap off h2 h']
  · unfold windowTarget; dsimp only
    repeat rw [if_neg (by omega)]
    repeat' split
    all_goals simp

end RegisterMap

end Sys2Proof.Machine
end

