-- ==== Sys2Proof/Laws/Ops.lean ====
section
/-! SUPPORT. The bytes of a word, the words of a block, and one lemma per round transform that says what each
word or byte of its result is. -/

namespace Sys2Proof.Machine

/-! ### Bytes of a word -/

theorem byte_getElem (w : Word) (r k : Nat) (hk : k < 8) : (byte w r)[k] = w.getLsbD (8 * r + k) := by
  simp [byte]

theorem pack_getLsbD (b0 b1 b2 b3 : Byte) (k : Nat) :
    (pack b0 b1 b2 b3).getLsbD k =
      if k < 8 then b0.getLsbD k else if k - 8 < 8 then b1.getLsbD (k - 8)
      else if k - 8 - 8 < 8 then b2.getLsbD (k - 8 - 8) else b3.getLsbD (k - 8 - 8 - 8) := by
  simp only [pack, BitVec.getLsbD_append]

@[simp] theorem byte_pack_zero (b0 b1 b2 b3 : Byte) : byte (pack b0 b1 b2 b3) 0 = b0 := by
  apply BitVec.eq_of_getElem_eq
  intro k hk
  simp [byte_getElem _ _ _ hk, pack_getLsbD, hk]

@[simp] theorem byte_pack_one (b0 b1 b2 b3 : Byte) : byte (pack b0 b1 b2 b3) 1 = b1 := by
  apply BitVec.eq_of_getElem_eq
  intro k hk
  simp [byte_getElem _ _ _ hk, pack_getLsbD, hk]

@[simp] theorem byte_pack_two (b0 b1 b2 b3 : Byte) : byte (pack b0 b1 b2 b3) 2 = b2 := by
  apply BitVec.eq_of_getElem_eq
  intro k hk
  have h1 : ¬ (16 + k < 8) := by omega
  have h2 : ¬ (16 + k - 8 < 8) := by omega
  have h3 : 16 + k - 8 - 8 = k := by omega
  simp [byte_getElem _ _ _ hk, pack_getLsbD, hk, h1, h2, h3]

@[simp] theorem byte_pack_three (b0 b1 b2 b3 : Byte) : byte (pack b0 b1 b2 b3) 3 = b3 := by
  apply BitVec.eq_of_getElem_eq
  intro k hk
  have h1 : ¬ (24 + k < 8) := by omega
  have h2 : ¬ (24 + k - 8 < 8) := by omega
  have h3 : ¬ (24 + k - 8 - 8 < 8) := by omega
  have h4 : 24 + k - 8 - 8 - 8 = k := by omega
  simp [byte_getElem _ _ _ hk, pack_getLsbD, hk, h1, h2, h3, h4]

/-- Two words with the same four bytes are equal. -/
theorem word_ext {v w : Word} (h0 : byte v 0 = byte w 0) (h1 : byte v 1 = byte w 1)
    (h2 : byte v 2 = byte w 2) (h3 : byte v 3 = byte w 3) : v = w := by
  apply BitVec.eq_of_getLsbD_eq
  intro k hk
  have h : ∀ r, r < 4 → byte v r = byte w r := by
    intro r hr
    match r, hr with
    | 0, _ => exact h0
    | 1, _ => exact h1
    | 2, _ => exact h2
    | 3, _ => exact h3
  have hk8 : k % 8 < 8 := Nat.mod_lt _ (by omega)
  have e : (byte v (k / 8))[k % 8] = (byte w (k / 8))[k % 8] := by rw [h (k / 8) (by omega)]
  rwa [byte_getElem _ _ _ hk8, byte_getElem _ _ _ hk8, Nat.div_add_mod] at e

@[simp] theorem byte_xor (v w : Word) (r : Nat) : byte (v ^^^ w) r = byte v r ^^^ byte w r := by
  apply BitVec.eq_of_getElem_eq
  intro k hk
  simp [byte_getElem _ _ _ hk]

@[simp] theorem byte_zext32_zero (b : Byte) : byte (zext32 b) 0 = b := by
  apply BitVec.eq_of_getElem_eq
  intro k hk
  have h32 : k < 32 := by omega
  simp [byte_getElem _ _ _ hk, zext32, hk, h32]

/-! ### Words of a block -/

/-- Two blocks with the same four words are equal. -/
theorem block_ext {A B : Block} (h : ∀ c : Fin 4, A[c] = B[c]) : A = B :=
  Vector.ext fun i hi => h ⟨i, hi⟩

section Columns
variable (S : Block) (W : KeySchedule) (n : Fin 11) (c : Nat) (hc : c < 4)

@[simp] theorem roundKey_getElem : (roundKey W n)[c] = W[4 * n.val + c] := by simp [roundKey]

@[simp] theorem subBytes_getElem : (subBytes S)[c] = subWord S[c] := by simp [subBytes]

@[simp] theorem shiftRows_getElem : (shiftRows S)[c] =
    pack (byte S[c] 0) (byte S[(c + 1) % 4] 1) (byte S[(c + 2) % 4] 2) (byte S[(c + 3) % 4] 3) := by
  simp [shiftRows, Fin.val_add]

@[simp] theorem mixColumns_getElem : (mixColumns S)[c] = mixColumn S[c] := by simp [mixColumns]

@[simp] theorem addRoundKey_getElem : (addRoundKey W S n)[c] = S[c] ^^^ W[4 * n.val + c] := by
  simp [addRoundKey]

end Columns

@[simp] theorem keyExpansion_getElem (k : Block) (m : Nat) (hm : m < 44) :
    (keyExpansion k)[m] = (keyGroup k (m / 4))[m % 4] := by
  simp [keyExpansion]

section Entries
variable (i : Nat) (hi : i < 256)

@[simp] theorem genT0_getElem : genT0[i] = t0Entry (BitVec.ofFin ⟨i, hi⟩) := by simp [genT0]
@[simp] theorem genT1_getElem : genT1[i] = rotBytes (t0Entry (BitVec.ofFin ⟨i, hi⟩)) 3 := by
  simp [genT1, rotatedTable]
@[simp] theorem genT2_getElem : genT2[i] = rotBytes (t0Entry (BitVec.ofFin ⟨i, hi⟩)) 2 := by
  simp [genT2, rotatedTable]
@[simp] theorem genT3_getElem : genT3[i] = rotBytes (t0Entry (BitVec.ofFin ⟨i, hi⟩)) 1 := by
  simp [genT3, rotatedTable]

end Entries

/-! ### Recording an error -/

theorem State.recordError_first (code : ErrCode) (s : State) (h : s.err = .none) :
    s.recordError code = { s with err := code } := if_pos h

theorem State.recordError_later (code : ErrCode) (s : State) (h : s.err ≠ .none) :
    s.recordError code = { s with errOvf := true } := if_neg h

end Sys2Proof.Machine
end

