-- ==== Sys2Proof/Laws/PerInstr.lean ====
section
/-! SUPPORT. The per-instruction family EncodedFields: the fields of every command's encoded word are its
opcode and its operands, and the reserved field is 0 (30_encoding.md R90, R103). -/

namespace Sys2Proof.Laws

/-- The fields of the encoded word. -/
def EncodedFields.Statement (i : Instr) : Prop :=
  opcField (encode i) = i.opcode ∧ argField (encode i) = i.argOperand ∧
    rndField (encode i) = i.rndOperand ∧ rsvField (encode i) = 0

theorem EncodedFields.nop : EncodedFields.Statement .nop := by unfold Statement; decide
theorem EncodedFields.loadBlock : EncodedFields.Statement .loadBlock := by unfold Statement; decide
theorem EncodedFields.storeBlock : EncodedFields.Statement .storeBlock := by unfold Statement; decide
theorem EncodedFields.expandKey : EncodedFields.Statement .expandKey := by unfold Statement; decide
theorem EncodedFields.addRoundKey (n : BitVec 4) : EncodedFields.Statement (.addRoundKey n) := by
  unfold Statement; decide +revert
theorem EncodedFields.subBytes : EncodedFields.Statement .subBytes := by unfold Statement; decide
theorem EncodedFields.shiftRows : EncodedFields.Statement .shiftRows := by unfold Statement; decide
theorem EncodedFields.mixColumns : EncodedFields.Statement .mixColumns := by unfold Statement; decide
theorem EncodedFields.round (n : BitVec 4) : EncodedFields.Statement (.round n) := by
  unfold Statement; decide +revert
theorem EncodedFields.finalRound : EncodedFields.Statement .finalRound := by unfold Statement; decide
theorem EncodedFields.encrypt : EncodedFields.Statement .encrypt := by unfold Statement; decide
theorem EncodedFields.xtime (arg : Byte) : EncodedFields.Statement (.xtime arg) := by
  unfold Statement; decide +revert
theorem EncodedFields.sbox (arg : Byte) : EncodedFields.Statement (.sbox arg) := by
  unfold Statement; decide +revert
theorem EncodedFields.genTables : EncodedFields.Statement .genTables := by unfold Statement; decide
theorem EncodedFields.tRound (n : BitVec 4) : EncodedFields.Statement (.tRound n) := by
  unfold Statement; decide +revert
theorem EncodedFields.encryptT : EncodedFields.Statement .encryptT := by unfold Statement; decide
theorem EncodedFields.clrErr : EncodedFields.Statement .clrErr := by unfold Statement; decide

end Sys2Proof.Laws
end

