-- ==== Sys2Proof/Laws/Report.lean ====
section
/-! SUPPORT. A state with another error report: its fields, its checks, and what a command does from it. -/

namespace Sys2Proof.Machine

section Fields
variable (e : ErrCode) (o : Bool) (s : State)

@[simp] theorem State.withReport_key : (s.withReport e o).key = s.key := rfl
@[simp] theorem State.withReport_din : (s.withReport e o).din = s.din := rfl
@[simp] theorem State.withReport_dout : (s.withReport e o).dout = s.dout := rfl
@[simp] theorem State.withReport_state : (s.withReport e o).state = s.state := rfl
@[simp] theorem State.withReport_result : (s.withReport e o).result = s.result := rfl
@[simp] theorem State.withReport_cmd : (s.withReport e o).cmd = s.cmd := rfl
@[simp] theorem State.withReport_pending : (s.withReport e o).pending = s.pending := rfl
@[simp] theorem State.withReport_rk : (s.withReport e o).rk = s.rk := rfl
@[simp] theorem State.withReport_t0 : (s.withReport e o).t0 = s.t0 := rfl
@[simp] theorem State.withReport_t1 : (s.withReport e o).t1 = s.t1 := rfl
@[simp] theorem State.withReport_t2 : (s.withReport e o).t2 = s.t2 := rfl
@[simp] theorem State.withReport_t3 : (s.withReport e o).t3 = s.t3 := rfl
@[simp] theorem State.withReport_schedValid : (s.withReport e o).schedValid = s.schedValid := rfl
@[simp] theorem State.withReport_tablesValid : (s.withReport e o).tablesValid = s.tablesValid := rfl
@[simp] theorem State.withReport_done : (s.withReport e o).done = s.done := rfl
@[simp] theorem State.withReport_capTables : (s.withReport e o).capTables = s.capTables := rfl
@[simp] theorem State.withReport_actions : (s.withReport e o).actions = s.actions := rfl
@[simp] theorem State.withReport_returned : (s.withReport e o).returned = s.returned := rfl
@[simp] theorem State.withReport_resets : (s.withReport e o).resets = s.resets := rfl
@[simp] theorem State.withReport_err : (s.withReport e o).err = e := rfl
@[simp] theorem State.withReport_errOvf : (s.withReport e o).errOvf = o := rfl
@[simp] theorem State.withReport_busy : (s.withReport e o).busy = s.busy := rfl
@[simp] theorem check_withReport (v : Word) : check v (s.withReport e o) = check v s := rfl
@[simp] theorem checkInstr_withReport (i : Instr) : checkInstr i (s.withReport e o) = checkInstr i s := rfl

end Fields

/-- Recording an error changes only the report. -/
theorem State.recordError_report (code : ErrCode) (s : State) :
    ∃ e o, s.recordError code = s.withReport e o := by
  unfold State.recordError
  split
  · exact ⟨_, s.errOvf, rfl⟩
  · exact ⟨s.err, _, rfl⟩

/-- From another report, recording an error gives the same state but for the report. -/
theorem State.recordError_withReport (code : ErrCode) (e : ErrCode) (o : Bool) (s : State) :
    ∃ e' o', (s.withReport e o).recordError code = (s.recordError code).withReport e' o' := by
  obtain ⟨e', o', h⟩ := State.recordError_report code (s.withReport e o)
  obtain ⟨e'', o'', h'⟩ := State.recordError_report code s
  exact ⟨e', o', by rw [h, h']; rfl⟩

/-- From another report, a command goes to the same state but for the report. -/
theorem exec_withReport {i : Instr} {s t : State} (h : exec i s = .next t) (e : ErrCode) (o : Bool) :
    ∃ e' o', exec i (s.withReport e o) = .next (t.withReport e' o') := by
  by_cases hc : checkInstr i s = .none
  · have hc' : checkInstr i (s.withReport e o) = .none := hc
    cases i <;>
      simp only [exec, execNop, execLoadBlock, execStoreBlock, execExpandKey, execAddRoundKey, execSubBytes,
        execShiftRows, execMixColumns, execRound, execFinalRound, execEncrypt, execXtime, execSbox,
        execGenTables, execTRound, execEncryptT, execClrErr] at h ⊢ <;>
      (try rw [performChecked_pass hc] at h) <;> injection h with h <;> subst h <;>
      (try rw [performChecked_pass hc']) <;>
      first | exact ⟨e, o, rfl⟩ | exact ⟨.none, false, rfl⟩
  · obtain ⟨u, hu, -⟩ := exec_checked i s
    obtain ⟨u', hu', -⟩ := exec_checked i (s.withReport e o)
    rw [hu, performChecked_fail hc] at h
    injection h with h
    subst h
    have hc' : checkInstr i (s.withReport e o) ≠ .none := hc
    rw [hu', performChecked_fail hc']
    obtain ⟨e', o', hr⟩ := State.recordError_withReport (checkInstr i s) e o { s with done := true }
    exact ⟨e', o', congrArg _ hr⟩

end Sys2Proof.Machine
end

