-- ==== Sys2Proof/Laws/Step.lean ====
section
/-! SUPPORT. The step of the whole machine, one case at a time. -/

namespace Sys2Proof.Machine

/-- A step with an action to come performs it, on the state with the action taken off. -/
theorem step_of_action {s : State} {a : Action} {rest : List Action} (h : s.actions = a :: rest) :
    step s = performAction a { s with actions := rest } := by
  simp [step, nextAction, h]

/-- A step with no action to come is the completion step. -/
theorem step_of_none {s : State} (h : s.actions = []) : step s = complete s := by
  simp [step, nextAction, h]

/-- The completion step of a pending command: its effect, then finished. -/
theorem complete_of_command {s t : State} {w : Word} {i : Instr} (hp : s.pending = some w)
    (hd : decode w = .ok i) (he : exec i s = .next t) : complete s = .next t.finishCommand := by
  simp [complete, hp, hd, he, finishOutcome]

/-- The completion step with nothing pending changes nothing. -/
theorem complete_idle {s : State} (hp : s.pending = none) : complete s = .next s := by
  simp [complete, hp]

/-- All a completion step can do: nothing, a command's effect and its end, or the rejection of a word that is
no command. -/
theorem complete_cases (s : State) :
    (s.pending = none ∧ complete s = .next s) ∨
    (∃ w i t, s.pending = some w ∧ decode w = .ok i ∧ exec i s = .next t ∧
      complete s = .next t.finishCommand) ∨
    (∃ w e, s.pending = some w ∧ decode w = .error e ∧
      complete s = .next (s.rejectCommand (check w s)).finishCommand) := by
  cases hp : s.pending with
  | none => exact .inl ⟨rfl, complete_idle hp⟩
  | some w =>
    cases hd : decode w with
    | ok i =>
      obtain ⟨t, ht⟩ := exec_total i s
      exact .inr (.inl ⟨w, i, t, rfl, hd, ht, complete_of_command hp hd ht⟩)
    | error e =>
      exact .inr (.inr ⟨w, e, rfl, hd, by simp [complete, hp, hd]⟩)

/-- Taking off an action that is not there changes nothing. -/
theorem State.popAction_of_none {s : State} (h : s.actions = []) : s.popAction = s := by
  cases s
  simp_all [State.popAction]

/-- A step that completes is the completion step of the state with its action taken off. -/
theorem step_of_completesNext {s : State} (h : s.completesNext) : step s = complete s.popAction := by
  rcases h with h | ⟨rest, h⟩
  · rw [step_of_none h, State.popAction_of_none h]
  · rw [step_of_action h]
    simp [State.popAction, h, performAction]

/-- All a step can do: a host read, a host write, a reset, or a completion step. -/
theorem step_cases {s t : State} (h : step s = .next t) :
    (∃ off n rest, s.actions = .hostRead off n :: rest ∧
      t = State.hostRead off n { s with actions := rest }) ∨
    (∃ off n v rest, s.actions = .hostWrite off n v :: rest ∧
      t = State.hostWrite off n v { s with actions := rest }) ∨
    (s.resetsNext ∧ t = s.popAction.resetEngine) ∨
    (s.completesNext ∧ complete s.popAction = .next t) := by
  cases ha : s.actions with
  | nil => exact .inr (.inr (.inr ⟨.inl ha, (step_of_completesNext (.inl ha)).symm.trans h⟩))
  | cons a rest =>
    rw [step_of_action ha] at h
    have p : s.popAction = { s with actions := rest } := by simp [State.popAction, ha]
    cases a with
    | hostRead off n => injection h with h; exact .inl ⟨_, _, _, rfl, h.symm⟩
    | hostWrite off n v => injection h with h; exact .inr (.inl ⟨_, _, _, _, rfl, h.symm⟩)
    | complete => exact .inr (.inr (.inr ⟨.inr ⟨_, ha⟩, p ▸ h⟩))
    | reset => injection h with h; exact .inr (.inr (.inl ⟨⟨_, ha⟩, p ▸ h.symm⟩))

/-- All a legal write to a target can do: a refused write only records its error. -/
theorem State.writeTarget_cases (v : Word) (s : State) (x : Target) :
    (x = .cmd ∧ s.pending = none ∧ s.writeTarget v x = s.issue v) ∨
    (∃ j, x = .key j ∧ s.pending = none ∧ s.writeTarget v x = s.writeKey j v) ∨
    (∃ c, x = .din c ∧ s.pending = none ∧ s.writeTarget v x = s.writeDin c v) ∨
    s.writeTarget v x = s.recordError .busy ∨ s.writeTarget v x = s.recordError .badAccess := by
  cases hb : s.busy <;> cases x <;> simp_all [State.writeTarget, State.busy]

/-- All an issue can do: accept the word, or reject it with the code of its check. -/
theorem State.issue_cases (v : Word) (s : State) :
    (check v s = .none ∧ s.issue v = State.acceptCommand v { s with cmd := v }) ∨
    (check v s ≠ .none ∧ s.issue v = State.rejectCommand (check v s) { s with cmd := v }) := by
  unfold State.issue
  split
  · exact .inl ⟨‹_›, rfl⟩
  · exact .inr ⟨‹_›, rfl⟩

/-- No step. -/
@[simp] theorem runSteps_zero (s : State) : runSteps 0 s = .next s := rfl

/-- One step more, in front, where it goes on. -/
theorem runSteps_succ {s t : State} (k : Nat) (h : step s = .next t) : runSteps (k + 1) s = runSteps k t := by
  have h' : Sys2Proof.core.step s = .next t := h
  simp only [runSteps, Host.Core.run, h']
  rfl

end Sys2Proof.Machine
end

