-- ==== Sys2Proof/Tests/Slice0.lean ====
section
/-! SUPPORT. The model's own tests: well-formedness, decoding of words written from the spec's encoding, at most
two steps per command with values of spec/95_test_vectors.md, and a witness for the hypotheses of each
obligation. -/

namespace Sys2Proof.Tests

open Sys2Proof Sys2Proof.Machine

/-! ### Helpers -/

/-- What a field of the next state is, none where there is no next state. -/
def field {α : Type} (f : State → α) : Host.Outcome State Fault Refusal → Option α
  | .next s => some (f s)
  | .fault _ => none
  | .refused _ => none

/-- The next state itself; the state before where there is none. -/
def nextOr (s : State) : Host.Outcome State Fault Refusal → State
  | .next t => t
  | .fault _ => s
  | .refused _ => s

/-- The next step. -/
def after (s : State) : State := nextOr s (step s)

/-- The reset state with actions to come. -/
def idle (actions : List Action) : State := { State.reset with actions := actions }

/-- A command word pending, with actions to come. -/
def busyWith (w : Word) (actions : List Action) : State :=
  { State.reset with cmd := w, pending := some w, actions := actions }

/-- KEY and DIN of the known-answer vector (95_test_vectors.md 1.1), everything else at reset. -/
def kat : State := { State.reset with
  key := #v[0x03020100, 0x07060504, 0x0B0A0908, 0x0F0E0D0C],
  din := #v[0x33221100, 0x77665544, 0xBBAA9988, 0xFFEEDDCC] }

/-- `kat` with the schedule of its key and the generated tables. -/
def katReady : State := { kat with
  rk := keyExpansion kat.key, schedValid := true,
  t0 := genT0, t1 := genT1, t2 := genT2, t3 := genT3, tablesValid := true }

/-- The start of round 1 of the known-answer trace (95_test_vectors.md 2.5). -/
def round1 : Block := #v[0x30201000, 0x70605040, 0xB0A09080, 0xF0E0D0C0]

/-- No table accelerator. -/
def noAccel : State := { State.reset with capTables := false }

/-! ### Well-formedness: each check refuses an ill-formed command -/

theorem test_wf_addRoundKey_low : (Instr.addRoundKey 0).wf = true := by decide
theorem test_wf_addRoundKey_10 : (Instr.addRoundKey 10).wf = true := by decide
theorem test_wf_addRoundKey_11 : (Instr.addRoundKey 11).wf = false := by decide
theorem test_wf_round_0 : (Instr.round 0).wf = false := by decide
theorem test_wf_round_9 : (Instr.round 9).wf = true := by decide
theorem test_wf_round_10 : (Instr.round 10).wf = false := by decide
theorem test_wf_tRound_0 : (Instr.tRound 0).wf = false := by decide
theorem test_wf_tRound_9 : (Instr.tRound 9).wf = true := by decide
theorem test_wf_tRound_10 : (Instr.tRound 10).wf = false := by decide
theorem test_assemble_refuses : assemble (.round 0) = none ∧ assemble (.addRoundKey 11) = none := by decide

/-! ### Decoding: OPC 7:0, ARG 15:8, RND 19:16, RSV 31:20 (30_encoding.md R90, R95) -/

theorem test_decode_nop : decode 0x00000000 = .ok .nop := by decide
theorem test_decode_loadBlock : decode 0x00000001 = .ok .loadBlock := by decide
theorem test_decode_storeBlock : decode 0x00000002 = .ok .storeBlock := by decide
theorem test_decode_expandKey : decode 0x00000003 = .ok .expandKey := by decide
theorem test_decode_addRoundKey : decode 0x000A0004 = .ok (.addRoundKey 10) := by decide
theorem test_decode_subBytes : decode 0x00000005 = .ok .subBytes := by decide
theorem test_decode_shiftRows : decode 0x00000006 = .ok .shiftRows := by decide
theorem test_decode_mixColumns : decode 0x00000007 = .ok .mixColumns := by decide
theorem test_decode_round : decode 0b00000000000010010000000000001000 = .ok (.round 9) := by decide
theorem test_decode_finalRound : decode 0x00000009 = .ok .finalRound := by decide
theorem test_decode_encrypt : decode 0x0000000A = .ok .encrypt := by decide
theorem test_decode_xtime : decode 0b00000000000000000101011100001011 = .ok (.xtime 0x57) := by decide
theorem test_decode_sbox : decode 0x0000530C = .ok (.sbox 0x53) := by decide
theorem test_decode_genTables : decode 0x0000000D = .ok .genTables := by decide
theorem test_decode_tRound : decode 0x0001000E = .ok (.tRound 1) := by decide
theorem test_decode_encryptT : decode 0x0000000F = .ok .encryptT := by decide
theorem test_decode_clrErr : decode 0x00000010 = .ok .clrErr := by decide
theorem test_decode_illegal : decode 0x00000011 = .error .illegalOpc ∧
    decode 0xFFFFFFFF = .error .illegalOpc := by decide
theorem test_decode_reserved : decode 0x80000000 = .error .reserved ∧
    decode 0x00010000 = .error .reserved ∧ decode 0x00000104 = .error .reserved := by decide
theorem test_decode_bytes : decodeBytes [0x04, 0x00, 0x0A, 0x00, 0xFF] =
    some (.ok (.addRoundKey 10), [0xFF]) := by rfl

/-! ### One step of each command (95_test_vectors.md 1.1, 2.1-2.5, 2.7) -/

theorem test_nop : field (fun s => (s.done, s.busy)) (step (State.reset.withFetchWord 32 0x00)) =
    some (true, false) := by decide
theorem test_loadBlock : field State.state (exec .loadBlock kat) =
    some #v[0x33221100, 0x77665544, 0xBBAA9988, 0xFFEEDDCC] := by decide
theorem test_storeBlock : field State.dout (exec .storeBlock { kat with state := round1 }) =
    some #v[0x30201000, 0x70605040, 0xB0A09080, 0xF0E0D0C0] := by decide
theorem test_expandKey : field (fun s => (s.rk[4], s.rk[40], s.rk[43])) (exec .expandKey kat) =
    some (0xFD74AAD6, 0x7F1D1113, 0xC5302B4D) := by decide
theorem test_addRoundKey : field State.state (exec (.addRoundKey 10) { katReady with state := kat.din }) =
    some #v[0x4C3F0013, 0x602CC1A7, 0x300D9E7B, 0x3ADEF681] := by decide
theorem test_subBytes : field State.state (exec .subBytes { kat with state := round1 }) =
    some #v[0x04B7CA63, 0x51D05309, 0xE7E060CD, 0x8CE170BA] := by decide
theorem test_shiftRows : field State.state
    (exec .shiftRows { kat with state := #v[0x11111111, 0x22222222, 0x33333333, 0x44444444] }) =
    some #v[0x44332211, 0x11443322, 0x22114433, 0x33221144] := by decide
theorem test_mixColumns : field State.state
    (exec .mixColumns { kat with state := #v[0x455313DB, 0x5C220AF2, 0x00000080, 0x305DBFD4] }) =
    some #v[0xBCA14D8E, 0x9D58DC9F, 0x9B80801B, 0xE5816604] := by decide
theorem test_round : field State.state (exec (.round 1) { katReady with state := round1 }) =
    some #v[0xE810D889, 0x68CE5A85, 0xD843182D, 0xE48F12CB] := by decide
theorem test_finalRound : field State.state (exec .finalRound
    { katReady with state := #v[0x3D7C6EBD, 0x9E77B5F2, 0x6E21610B, 0x89B6108B] }) =
    some #v[0xD8E0C469, 0x30047B6A, 0x80B7CDD8, 0x5AC5B470] := by decide
theorem test_encrypt : field State.dout (exec .encrypt kat) =
    some #v[0xD8E0C469, 0x30047B6A, 0x80B7CDD8, 0x5AC5B470] := by decide +kernel
theorem test_xtime : field State.result (exec (.xtime 0xFF) kat) = some 0x000000E5 := by decide
theorem test_sbox : field State.result (exec (.sbox 0x53) kat) = some 0x000000ED := by decide
theorem test_genTables : field (fun s => (s.t0[0x53], s.t1[0x53], s.t2[0x53], s.t3[0x53]))
    (exec .genTables kat) = some (0x2CEDEDC1, 0xEDEDC12C, 0xEDC12CED, 0xC12CEDED) := by decide +kernel
theorem test_tRound : field State.state (exec (.tRound 1) { katReady with state := round1 }) =
    some #v[0xE810D889, 0x68CE5A85, 0xD843182D, 0xE48F12CB] := by decide +kernel
theorem test_encryptT : field State.dout (exec .encryptT katReady) =
    some #v[0xD8E0C469, 0x30047B6A, 0x80B7CDD8, 0x5AC5B470] := by decide +kernel
theorem test_clrErr : field State.err (exec .clrErr { kat with err := .busy, errOvf := true }) =
    some .none := by decide

/-! ### Checks and host accesses (95_test_vectors.md 2.6, 2.8; 60_exceptions.md) -/

theorem test_check_tRound : check 0x0000000E State.reset = .badRound ∧
    check 0x0009000E State.reset = .noTables ∧ check 0x0000000E noAccel = .unsupported := by decide
theorem test_status_after_misaligned_read : (after (idle [.hostRead 0x0002 4])).statusRead = 0x00010800 := by
  decide
theorem test_status_after_status_write : (after (idle [.hostWrite 0x0004 4 0])).statusRead = 0x00010800 := by
  decide
theorem test_read_id : (after (idle [.hostRead 0x000C 4])).returned = [0x41455331] := by decide
theorem test_read_sbox_last : (after (idle [.hostRead 0x07FC 4])).returned = [0x00000016] := by decide
theorem test_read_schedule_gated : (after (idle [.hostRead 0x0100 4])).returned = [0] := by decide
theorem test_read_table_t3 : katReady.readWindow 0x1D4C = 0xC12CEDED := by decide +kernel
theorem test_key_write_clears_schedule :
    (after { katReady with actions := [.hostWrite 0x0010 4 0x03020100] }).schedValid = false := by decide
theorem test_gfMul : gfMul 0x57 0x13 = 0xFE ∧ gfMul 0x57 0x83 = 0xC1 := by decide

/-! ### Witnesses: states and operands that meet the hypotheses of the obligations, clause by clause -/

/-- The reset state is sound, whatever actions are to come. -/
theorem idle_inv (actions : List Action) : (idle actions).Inv where
  pending_in_cmd := by simp [idle, State.reset]
  pending_accepted := by simp [idle, State.reset]
  pending_not_done := by simp [idle, State.reset]
  schedule_of_key := by simp [idle, State.reset]
  tables_generated := by simp [idle, State.reset]
  tables_present := by simp [idle, State.reset]
  result_byte := rfl
  overflow_after_error := by simp [idle, State.reset]

/-- A pending word that Check accepts right after reset makes a sound state. -/
theorem busyWith_inv {w : Word} (h : check w State.reset = .none) (actions : List Action) :
    (busyWith w actions).Inv where
  pending_in_cmd := by simp [busyWith]
  pending_accepted := by
    intro v hv
    rw [← Option.some.inj hv]
    exact h
  pending_not_done := fun _ => rfl
  schedule_of_key := by simp [busyWith, State.reset]
  tables_generated := by simp [busyWith, State.reset]
  tables_present := by simp [busyWith, State.reset]
  result_byte := rfl
  overflow_after_error := by simp [busyWith, State.reset]

/-- The state with schedule and tables is sound. -/
theorem katReady_inv : katReady.Inv where
  pending_in_cmd := by simp [katReady, kat, State.reset]
  pending_accepted := by simp [katReady, kat, State.reset]
  pending_not_done := by simp [katReady, kat, State.reset]
  schedule_of_key := fun _ => rfl
  tables_generated := fun _ => ⟨rfl, rfl, rfl, rfl⟩
  tables_present := fun _ => rfl
  result_byte := rfl
  overflow_after_error := by simp [katReady, kat, State.reset]

theorem witness_MatchAndMask_rows :
    opcodeTable[4] ∈ opcodeTable ∧ (0x000F0004 : Word) &&& opcodeTable[4].mask = opcodeTable[4].pattern := by
  decide
theorem witness_MatchAndMask_checks : decode 0x000F0004 = .ok (.addRoundKey 15) := by decide
theorem witness_AcceptedWords : check 0x00000010 State.reset = .none ∧ check 0x000A0004 katReady = .none := by
  decide
theorem witness_CheckReports : State.reset.tablesValid = false ∧ State.reset.schedValid = false ∧
    State.reset.capTables = true ∧ (0xFFFFFF11 : Word).toNat % 256 = 0x11 := by decide
theorem witness_EachOpcode : ErrCode.reserved ∈ possibleErrors 0x00 ∧
    ErrCode.unsupported ∈ possibleErrors 0x0D ∧ ErrCode.noTables ∈ possibleErrors 0x0F ∧
    ErrCode.noSched ∈ possibleErrors 0x0E ∧ ErrCode.illegalOpc ∈ possibleErrors 0x11 ∧
    ErrCode.illegalOpc ∈ possibleErrors 0xFF := by decide

theorem witness_IllegalAccess_read : ((2 : Nat) ≠ 4 ∨ (0x0000 : Offset).toNat % 4 ≠ 0) ∧
    (idle [.hostRead 0x0000 2]).actions = .hostRead 0x0000 2 :: [] := by decide
theorem witness_IllegalAccess_write : ((4 : Nat) ≠ 4 ∨ (0x1FFE : Offset).toNat % 4 ≠ 0) ∧
    (busyWith 0 [.hostWrite 0x1FFE 4 7]).actions = .hostWrite 0x1FFE 4 7 :: [] := by decide

theorem witness_LegalWrite_cmd : (idle [.hostWrite 0x0000 4 1]).actions = .hostWrite 0x0000 4 1 :: [] ∧
    (0x0000 : Offset).toNat % 4 = 0 ∧ (0x0000 : Offset).toNat = 0x0000 ∧
    (idle [.hostWrite 0x0000 4 1]).busy = false := by decide
theorem witness_LegalWrite_key : (idle [.hostWrite 0x001C 4 1]).actions = .hostWrite 0x001C 4 1 :: [] ∧
    (0x001C : Offset).toNat % 4 = 0 ∧ (0x001C : Offset).toNat = 0x0010 + 4 * (3 : Fin 4).val ∧
    (0x0010 : Offset).toNat = 0x0010 + 4 * (0 : Fin 4).val ∧
    (idle [.hostWrite 0x001C 4 1]).busy = false := by decide
theorem witness_LegalWrite_din : (idle [.hostWrite 0x002C 4 1]).actions = .hostWrite 0x002C 4 1 :: [] ∧
    (0x002C : Offset).toNat % 4 = 0 ∧ (0x002C : Offset).toNat = 0x0020 + 4 * (3 : Fin 4).val ∧
    (0x0020 : Offset).toNat = 0x0020 + 4 * (0 : Fin 4).val ∧
    (idle [.hostWrite 0x002C 4 1]).busy = false := by decide
theorem witness_LegalWrite_busy :
    (busyWith 0 [.hostWrite 0x002C 4 1]).actions = .hostWrite 0x002C 4 1 :: [] ∧
    (0x002C : Offset).toNat % 4 = 0 ∧ 0x0010 ≤ (0x002C : Offset).toNat ∧ (0x002C : Offset).toNat < 0x0030 ∧
    (busyWith 0 [.hostWrite 0x002C 4 1]).busy = true := by decide
theorem witness_LegalWrite_readOnly :
    (idle [.hostWrite 0x1FFC 4 1]).actions = .hostWrite 0x1FFC 4 1 :: [] ∧
    (0x1FFC : Offset).toNat % 4 = 0 ∧ (0x1FFC : Offset).toNat ≠ 0x0000 ∧ 0x0030 ≤ (0x1FFC : Offset).toNat ∧
    (0x0004 : Offset).toNat ≠ 0x0000 ∧ (0x0004 : Offset).toNat < 0x0010 ∧ (0x0004 : Offset).toNat % 4 = 0 := by
  decide

theorem witness_LegalRead : (busyWith 0 [.hostRead 0x1FFC 4]).actions = .hostRead 0x1FFC 4 :: [] ∧
    (0x1FFC : Offset).toNat % 4 = 0 := by decide
theorem witness_LegalRead_unmapped : 0x0050 ≤ (0x0050 : Offset).toNat ∧ (0x00FF : Offset).toNat < 0x0100 ∧
    0x01B0 ≤ (0x01B0 : Offset).toNat ∧ (0x03FF : Offset).toNat < 0x0400 ∧
    0x0800 ≤ (0x0800 : Offset).toNat ∧ (0x0FFF : Offset).toNat < 0x1000 ∧
    0x1000 ≤ (0x1000 : Offset).toNat ∧ noAccel.capTables = false := by decide
theorem witness_StatusReads : (idle [.hostWrite 0x0004 4 5]).actions = .hostWrite 0x0004 4 5 :: [] := by decide
theorem witness_IdAlwaysReads : (idle [.hostWrite 0x000C 4 5]).actions = .hostWrite 0x000C 4 5 :: [] := by decide
theorem witness_HardwiredBits : 0x0400 ≤ (0x0400 : Offset).toNat ∧ (0x07FF : Offset).toNat < 0x0800 := by decide
theorem witness_WindowIsReached : memRead engineBase 4 = some (.hostRead 0 4) ∧
    memWrite engineBase 4 9 = some (.hostWrite 0 4 9) := by
  simp [memRead, memWrite, windowOffset]

theorem witness_Issue_accepts : (idle [.hostWrite 0x0000 4 0x0A]).actions = .hostWrite 0x0000 4 0x0A :: [] ∧
    (idle [.hostWrite 0x0000 4 0x0A]).busy = false ∧ check 0x0A (idle [.hostWrite 0x0000 4 0x0A]) = .none := by
  decide
theorem witness_Issue_rejects : (idle [.hostWrite 0x0000 4 0x11]).busy = false ∧
    check 0x11 (idle [.hostWrite 0x0000 4 0x11]) ≠ .none ∧
    (idle [.hostWrite 0x0000 4 0x11]).err = .none := by decide
theorem witness_Issue_overflows :
    let s := { idle [.hostWrite 0x0000 4 0x11] with err := .busy }
    s.actions = .hostWrite 0x0000 4 0x11 :: [] ∧ s.busy = false ∧ check 0x11 s ≠ .none ∧ s.err ≠ .none := by
  decide

/-- CLR_ERR pending with an error and an overflow recorded. -/
def clearing : State := { busyWith 0x10 [.complete] with err := .noSched, errOvf := true }

theorem clearing_completes : clearing.completes .clrErr := ⟨.inr ⟨[], rfl⟩, 0x10, rfl, by decide⟩

theorem witness_ErrorReport_lowered : ∃ t, step clearing = .next t ∧
    clearing.err ≠ .none ∧ t.err ≠ clearing.err ∧ clearing.errOvf = true ∧ t.errOvf = false :=
  ⟨_, (by rw [step_of_completesNext clearing_completes.1,
        complete_of_command (s := clearing.popAction) (w := 0x10) (i := .clrErr) rfl (by decide) rfl]), by decide⟩
theorem witness_ErrorReport_reads :
    (idle [.hostRead 0x0004 4]).readsStatusNext ∧ ¬ (idle [.hostRead 0x0030 4]).readsStatusNext ∧
    ¬ (idle [.hostRead 0x0004 2]).readsStatusNext ∧ (∃ t, step (idle [.hostRead 0x0004 4]) = .next t) ∧
    ∃ t, step (idle [.hostRead 0x0030 4]) = .next t :=
  ⟨⟨[], rfl⟩, by simp [idle, State.readsStatusNext], by simp [idle, State.readsStatusNext], ⟨_, rfl⟩, ⟨_, rfl⟩⟩
theorem witness_ErrorReport_kept : State.reset.err = .none ∧ clearing.err ≠ .none := by decide
theorem witness_ClrErrAndReset : clearing.completes .clrErr ∧ (idle [.reset]).resetsNext :=
  ⟨clearing_completes, [], rfl⟩
theorem witness_Done_issue : (idle [.hostWrite 0 4 0x0A]).busy = false ∧
    check 0x0A (idle [.hostWrite 0 4 0x0A]) = .none ∧ check 0x11 (idle [.hostWrite 0 4 0x11]) ≠ .none ∧
    (busyWith 0 [.hostWrite 0 4 0x0A]).busy = true := by decide
theorem witness_Done_completes : (busyWith 0x0A []).completesNext ∧ (busyWith 0x0A []).busy = true ∧
    (busyWith 0x0A [.reset]).resetsNext := ⟨.inl rfl, rfl, [], rfl⟩

theorem witness_ValidFlags_set : (busyWith 0x03 []).completes .expandKey ∧
    (busyWith 0x0A [.complete]).completes .encrypt ∧
    ({ katReady with pending := some 0x0F } : State).completes .encryptT ∧
    ({ katReady with pending := some 0x0F } : State).tablesReady = true ∧
    (busyWith 0x0D []).completes .genTables ∧ (busyWith 0x0D []).capTables = true :=
  ⟨⟨.inl rfl, 0x03, rfl, by decide⟩, ⟨.inr ⟨[], rfl⟩, 0x0A, rfl, by decide⟩,
    ⟨.inl rfl, 0x0F, rfl, by decide⟩, by decide, ⟨.inl rfl, 0x0D, rfl, by decide⟩, by decide⟩
theorem witness_ValidFlags_raised : ∃ t, step (busyWith 0x03 []) = .next t ∧
    (busyWith 0x03 []).schedValid = false ∧ t.schedValid = true :=
  ⟨_, (by rw [step_of_none rfl, complete_of_command (w := 0x03) (i := .expandKey) rfl (by decide) rfl]), by decide⟩
theorem witness_ValidFlags_tables_raised : ∃ t, step (busyWith 0x0D []) = .next t ∧
    (busyWith 0x0D []).tablesValid = false ∧ t.tablesValid = true :=
  ⟨_, (by rw [step_of_none rfl, complete_of_command (w := 0x0D) (i := .genTables) rfl (by decide) rfl]), by decide⟩
theorem witness_ValidFlags_cleared :
    let s := { katReady with actions := [.hostWrite 0x001C 4 0] }
    s.writesKey ∧ s.schedValid = true ∧ (after s).schedValid = false :=
  ⟨⟨rfl, 0x001C, 0, [], rfl, by decide⟩, rfl, by decide⟩
theorem witness_ValidFlags_reset :
    let s := { katReady with actions := [.reset] }
    s.resetsNext ∧ s.tablesValid = true ∧ (after s).tablesValid = false := ⟨⟨[], rfl⟩, rfl, by decide⟩
theorem witness_KeyDin :
    let s := idle [.hostWrite 0x001C 4 7]
    let u := idle [.hostWrite 0x0020 4 7]
    (after s).key ≠ s.key ∧ (after u).din ≠ u.din := by decide

theorem witness_WithoutTables : noAccel.capTables = false ∧ (0x0009000E : Word).toNat % 256 ∈ [0x0D, 0x0E, 0x0F] ∧
    0x1000 ≤ (0x1000 : Offset).toNat ∧ (0x0000000C : Word).toNat % 256 ∉ [0x0D, 0x0E, 0x0F] := by decide
theorem witness_WithoutTables_issue :
    let s := { noAccel with actions := [.hostWrite 0x0000 4 0x0D] }
    s.capTables = false ∧ s.actions = .hostWrite 0x0000 4 0x0D :: [] ∧ s.busy = false ∧
      (0x0D : Word).toNat % 256 ∈ [0x0D, 0x0E, 0x0F] := by decide
theorem witness_WithoutTables_write :
    let s := { noAccel with actions := [.hostWrite 0x1FFC 4 7] }
    s.capTables = false ∧ 0x1000 ≤ (0x1FFC : Offset).toNat ∧ s.actions = .hostWrite 0x1FFC 4 7 :: [] ∧
      (0x1FFC : Offset).toNat % 4 = 0 := by decide
theorem witness_WithoutTables_others : needsAccel .encrypt = false ∧ ∃ t, exec .encrypt State.reset = .next t :=
  ⟨rfl, exec_total _ _⟩

theorem witness_StepExecutes : (busyWith 0x0A []).completes .encrypt ∧
    ({ katReady with pending := some 0x0009000E, actions := [.complete] } : State).completes (.tRound 9) :=
  ⟨⟨.inl rfl, 0x0A, rfl, by decide⟩, .inr ⟨[], rfl⟩, 0x0009000E, rfl, by decide⟩
theorem witness_AddRoundKey : katReady.schedValid = true ∧ (BitVec.ofNat 4 (0 : Fin 11).val) = 0 ∧
    (BitVec.ofNat 4 (10 : Fin 11).val) = 10 := by decide
theorem witness_SboxCommand : gfMul 0x01 0x01 = 1 ∧ gfMul 0x53 0xCA = 1 ∧ (0xFF : Byte) ≠ 0 := by decide
theorem witness_Stepwise : katReady.schedValid = true ∧ (1 : Fin 10) ≠ 0 ∧ (9 : Fin 10) ≠ 0 := by decide
theorem witness_GenTables : State.reset.capTables = true := by decide
theorem witness_TRound : katReady.capTables = true ∧ katReady.tablesValid = true ∧ katReady.schedValid = true ∧
    (1 : Fin 10) ≠ 0 ∧ (9 : Fin 10) ≠ 0 := by decide
theorem witness_TableRoundIsExact : katReady.Inv ∧ katReady.tablesValid = true ∧ katReady.schedValid = true ∧
    katReady.t0 = genT0 ∧ katReady.t1 = genT1 ∧ katReady.t2 = genT2 ∧ katReady.t3 = genT3 :=
  ⟨katReady_inv, rfl, rfl, rfl, rfl, rfl, rfl⟩
theorem witness_EncryptT : katReady.capTables = true ∧ katReady.tablesValid = true ∧ katReady.Inv :=
  ⟨rfl, rfl, katReady_inv⟩
theorem witness_ClrErr_pending :
    let s := { clearing with actions := [.hostWrite 0x0000 4 1, .complete] }
    s.pending = some 0x00000010 ∧ s.actions = .hostWrite 0x0000 4 1 :: .complete :: [] := by decide
theorem witness_FailingForms : checkInstr (.addRoundKey 11) katReady = .badRound ∧
    checkInstr (.round 0) katReady = .badRound ∧ checkInstr (.tRound 10) katReady = .badRound ∧
    checkInstr .finalRound kat = .noSched ∧ checkInstr .encryptT kat = .noTables ∧
    checkInstr .genTables noAccel = .unsupported ∧ kat.err = .none ∧ clearing.err ≠ .none ∧
    checkInstr .finalRound clearing = .noSched := by decide

theorem witness_AcceptedCommands : (busyWith 0x0A []).Inv ∧ (busyWith 0x0A []).completesNext ∧
    (busyWith 0x0A []).busy = true := ⟨busyWith_inv (by decide) _, .inl rfl, rfl⟩
theorem witness_CommandsChange : windowTarget true 0x0008 ≠ .status ∧
    mayWrite .genTables (windowTarget true 0x0008) = false ∧ mayWrite .encrypt (windowTarget true 0x1FFC) = false ∧
    ∃ t, exec .encrypt State.reset = .next t := ⟨by decide, by decide, by decide, exec_total _ _⟩
theorem witness_EveryStepKeeps : (busyWith 0x0A [.complete]).Inv ∧
    ∃ t, step (busyWith 0x0A [.complete]) = .next t :=
  ⟨busyWith_inv (by decide) _,
    _, by rw [step_of_action rfl, performAction, complete_of_command (w := 0x0A) (i := .encrypt) rfl (by decide) rfl]⟩
theorem witness_ResetInput : (busyWith 0x0A [.reset, .complete]).actions = .reset :: [.complete] ∧
    (busyWith 0x0A [.reset, .complete]).capTables = true ∧
    ({ noAccel with actions := [.reset] } : State).actions = .reset :: [] ∧ noAccel.capTables = false := by decide

/-- Two states that differ in the unspecified contents of RK and T1 and in the next draw. -/
def hidden : State :=
  { State.reset with rk := Vector.replicate 44 1, t1 := Vector.replicate 256 2, resets := 4, actions := [.reset] }
def hidden' : State :=
  { State.reset with rk := Vector.replicate 44 3, t1 := Vector.replicate 256 0, resets := 5, actions := [.reset] }

theorem witness_Unspecified : SameView hidden hidden' ∧ hidden.rk ≠ hidden'.rk ∧ hidden.t1 ≠ hidden'.t1 ∧
    (∃ t, step hidden = .next t) ∧ ∃ t, step hidden' = .next t := by
  have hr : ∀ (n : Nat) (a b : Word) [NeZero n], a ≠ b → Vector.replicate n a ≠ Vector.replicate n b := by
    intro n a b _ h e
    have := congrArg (fun v => v[0]'(Nat.pos_of_ne_zero (NeZero.ne n))) e
    exact h (by simpa using this)
  refine ⟨?_, hr 44 1 3 (by decide), hr 256 2 0 (by decide), ⟨_, rfl⟩, ⟨_, rfl⟩⟩
  constructor <;> first | rfl | (intro h; exact absurd h (by decide))

theorem witness_AccessesDoNotDisturb :
    (∀ a ∈ [Action.hostRead 0x0004 4, .hostWrite 0x0010 4 7], a.isAccess = true) ∧
    (busyWith 0x0A [.hostRead 0x0004 4, .hostWrite 0x0010 4 7, .complete]).pending = some 0x0A ∧
    (busyWith 0x0A [.hostRead 0x0004 4, .hostWrite 0x0010 4 7, .complete]).actions =
      [.hostRead 0x0004 4, .hostWrite 0x0010 4 7] ++ [.complete] := by decide
theorem witness_Polling : (busyWith 0x0A []).actions = [] ∧ (busyWith 0x0A []).busy = true ∧
    ∃ t, step (busyWith 0x0A []) = .next t :=
  ⟨rfl, rfl, _, by rw [step_of_none rfl, complete_of_command (w := 0x0A) (i := .encrypt) rfl (by decide) rfl]⟩
theorem witness_XtimeCorner : (0x7F : Byte).toNat ≤ 0x7F ∧ (0x7F : Byte).getLsbD 7 = false ∧
    (0x80 : Byte).getLsbD 7 = true := by decide

end Sys2Proof.Tests
end

/-! PROOF. `byte` and `pack` on numbers, and their round trip (00_scope.md R12). -/

namespace Sys2Proof.Machine

theorem byte_toNat (w : Word) (r : Nat) : (byte w r).toNat = w.toNat / 2 ^ (8 * r) % 256 := by
  rw [byte, BitVec.extractLsb'_toNat, Nat.shiftRight_eq_div_pow]

/-- Appending a byte below a word moves the word up by one byte. -/
theorem append_byte_toNat {n : Nat} (hi : BitVec n) (lo : Byte) :
    (hi ++ lo).toNat = 256 * hi.toNat + lo.toNat := by
  rw [BitVec.toNat_append, ← Nat.shiftLeft_add_eq_or_of_lt lo.isLt, Nat.shiftLeft_eq, Nat.mul_comm]

theorem pack_toNat (b0 b1 b2 b3 : Byte) : (pack b0 b1 b2 b3).toNat =
    b0.toNat + 256 * b1.toNat + 65536 * b2.toNat + 16777216 * b3.toNat := by
  rw [pack, append_byte_toNat, append_byte_toNat, append_byte_toNat]
  omega

/-- Both sides have the same four bytes. -/
@[simp] theorem pack_bytes (w : Word) : pack (byte w 0) (byte w 1) (byte w 2) (byte w 3) = w :=
  word_ext (byte_pack_zero ..) (byte_pack_one ..) (byte_pack_two ..) (byte_pack_three ..)

/-- Settles O52: the two readings on numbers, and the round trip byte by byte. -/
theorem packAndByteAreInverse : Obligations.PackAndByteAreInverse :=
  ⟨fun w r => byte_toNat w r, pack_toNat, pack_bytes⟩

end Sys2Proof.Machine

/-! PROOF. What the window reads at STATUS, RESULT, ID and the S-box window, the bits of those words, and a
host write to a read-only register (10_state.md R32-R34; 20_memory.md R62-R65). -/

namespace Sys2Proof.Machine

/-! ### The reads -/

theorem State.readWindow_of_target {s : State} {off : Offset} {x : Target}
    (h : windowTarget s.capTables off = x) : s.readWindow off = s.readTarget x := by
  rw [State.readWindow, h]

@[simp] theorem State.readWindow_status (s : State) : s.readWindow 0x0004 = s.statusRead :=
  State.readWindow_of_target (windowTarget_status _ _ (by decide) (by decide))

@[simp] theorem State.readWindow_result (s : State) : s.readWindow 0x0008 = s.resultRead :=
  State.readWindow_of_target (windowTarget_result _ _ (by decide) (by decide))

@[simp] theorem State.readWindow_id (s : State) : s.readWindow 0x000C = idWord :=
  State.readWindow_of_target (windowTarget_id _ _ (by decide) (by decide))

/-- Every offset of the S-box window, aligned or not, names an entry of the ROM. -/
theorem windowTarget_sboxWindow (cap : Bool) (off : Offset) (h : 0x0400 ≤ off.toNat) (h' : off.toNat < 0x0800) :
    ∃ i, windowTarget cap off = .sbox i := by
  unfold windowTarget; dsimp only
  repeat rw [if_neg (by omega)]
  exact ⟨_, if_pos h'⟩

theorem State.readWindow_sboxWindow (s : State) {off : Offset} (h : 0x0400 ≤ off.toNat)
    (h' : off.toNat < 0x0800) : ∃ b, s.readWindow off = zext32 b := by
  obtain ⟨i, hi⟩ := windowTarget_sboxWindow s.capTables off h h'
  exact ⟨sbox (BitVec.ofFin i), State.readWindow_of_target hi⟩

/-! ### The bits of STATUS, and of a zero-extended byte -/

theorem State.statusRead_flags (s : State) :
    s.statusRead.getLsbD 0 = s.busy ∧ s.statusRead.getLsbD 1 = s.schedValid ∧
      s.statusRead.getLsbD 2 = s.tablesReady ∧ s.statusRead.getLsbD 3 = s.done ∧
      s.statusRead.getLsbD 4 = s.errOvf ∧ s.statusRead.getLsbD 16 = s.capTables := by
  simp only [State.statusRead, bit, BitVec.getLsbD_append]
  simp

/-- Drop the fields below ERR, then those above it. -/
theorem State.statusRead_err (s : State) : s.statusRead.extractLsb' 8 4 = s.err.code := by
  unfold State.statusRead
  repeat rw [BitVec.extractLsb'_append_eq_of_le (by decide)]
  rw [BitVec.extractLsb'_append_eq_of_add_le (by decide)]
  exact BitVec.extractLsb'_eq_self

/-- The mask cut into STATUS's fields: all ones over a reserved field, 0 over every other. -/
theorem State.statusRead_and_reserved (s : State) : s.statusRead &&& 0xFFFEF0E0 = 0 := by
  have mask : (0xFFFEF0E0 : Word) =
      0x7FFF#15 ++ 0#1 ++ 0xF#4 ++ 0#4 ++ 0x7#3 ++ 0#1 ++ 0#1 ++ 0#1 ++ 0#1 ++ 0#1 := by decide
  rw [State.statusRead, mask]
  repeat rw [BitVec.and_append]
  simp

/-- Drop the fields below the reserved one, then those above it: what is left is hardwired to 0. -/
theorem State.statusRead_reserved (s : State) :
    s.statusRead.extractLsb' 5 3 = 0 ∧ s.statusRead.extractLsb' 12 4 = 0 ∧
      s.statusRead.extractLsb' 17 15 = 0 := by
  unfold State.statusRead
  refine ⟨?_, ?_, ?_⟩
  all_goals
    repeat rw [BitVec.extractLsb'_append_eq_of_le (by decide)]
    repeat rw [BitVec.extractLsb'_append_eq_of_add_le (by decide)]
    rfl

theorem zext32_eq_append (b : Byte) : zext32 b = 0#24 ++ b :=
  BitVec.setWidth_eq_append (by decide)

theorem zext32_and_high (b : Byte) : zext32 b &&& 0xFFFFFF00 = 0 := by
  have mask : (0xFFFFFF00 : Word) = 0xFFFFFF#24 ++ 0#8 := by decide
  rw [zext32_eq_append, mask, BitVec.and_append]
  simp

/-! ### A host write to a read-only register -/

/-- A write outside CMD, KEY and DIN is refused with BAD_ACCESS, BUSY or not (R65). -/
theorem State.writeTarget_readOnly (v : Word) (s : State) {x : Target} (hc : x ≠ .cmd)
    (hk : ∀ j, x ≠ .key j) (hd : ∀ c, x ≠ .din c) : s.writeTarget v x = s.recordError .badAccess := by
  cases x with
  | cmd => exact absurd rfl hc
  | key j => exact absurd rfl (hk j)
  | din c => exact absurd rfl (hd c)
  | _ => rfl

/-- A step with an aligned 32-bit write to come writes what its offset names. -/
theorem step_of_legalWrite {s : State} {off : Offset} {v : Word} {rest : List Action}
    (ha : s.actions = .hostWrite off 4 v :: rest) (h4 : off.toNat % 4 = 0) :
    step s = .next (({ s with actions := rest } : State).writeTarget v (windowTarget s.capTables off)) := by
  rw [step_of_action ha, performAction, State.hostWrite, if_pos ((legalAccess_iff off 4).2 ⟨rfl, h4⟩)]

theorem step_of_readOnlyWrite {s : State} {off : Offset} {v : Word} {rest : List Action}
    (ha : s.actions = .hostWrite off 4 v :: rest) (h4 : off.toNat % 4 = 0) (h0 : off.toNat ≠ 0)
    (h : off.toNat < 0x0010 ∨ 0x0030 ≤ off.toNat) :
    step s = .next (({ s with actions := rest } : State).recordError .badAccess) := by
  obtain ⟨hc, hk, hd⟩ := windowTarget_readOnly s.capTables off h0 h4 h
  rw [step_of_legalWrite ha h4, State.writeTarget_readOnly v _ hc hk hd]

/-! ### The obligations -/

/-- Settles O11: the fields of STATUS one by one, the reset value by evaluation, and the write by the rule for
read-only offsets. -/
theorem statusReadsItsFields : Obligations.StatusReadsItsFields := by
  refine ⟨fun s => ?_, by decide, fun s v rest ha =>
    step_of_readOnlyWrite ha (by decide) (by decide) (by decide)⟩
  obtain ⟨hbusy, hsched, htables, hdone, hovf, hcap⟩ := s.statusRead_flags
  obtain ⟨h5, h12, h17⟩ := s.statusRead_reserved
  rw [State.readWindow_status]
  exact ⟨hbusy, hsched, htables, hdone, hovf, h5, s.statusRead_err, h12, hcap, h17⟩

/-- Settles O12: RESULT and the S-box window both read as a zero-extended byte. -/
theorem hardwiredBitsReadZero : Obligations.HardwiredBitsReadZero := by
  refine fun s => ⟨?_, ?_, fun off h h' => ?_⟩
  · rw [State.readWindow_status, State.statusRead_and_reserved]
  · rw [State.readWindow_result, State.resultRead, zext32_and_high]
  · obtain ⟨b, hb⟩ := s.readWindow_sboxWindow h h'
    rw [hb, zext32_and_high]

/-- Settles O13: ID is the same constant in every state, after reset as before it. -/
theorem idAlwaysReadsAES1 : Obligations.IdAlwaysReadsAES1 := by
  refine ⟨State.readWindow_id, fun s => ?_, by decide, fun s v rest ha =>
    step_of_readOnlyWrite ha (by decide) (by decide) (by decide)⟩
  rw [State.readWindow_id, State.readWindow_id]

end Sys2Proof.Machine

/-! PROOF. DONE and BUSY over the life of a command: issue, completion, reset (10_state.md R37). -/

namespace Sys2Proof.Machine

theorem State.issue_accepted {v : Word} {s : State} (h : check v s = .none) :
    s.issue v = State.acceptCommand v { s with cmd := v } := by
  rcases s.issue_cases v with ⟨-, hi⟩ | ⟨hc, -⟩
  · exact hi
  · exact absurd h hc

theorem State.issue_rejected {v : Word} {s : State} (h : check v s ≠ .none) :
    s.issue v = State.rejectCommand (check v s) { s with cmd := v } := by
  rcases s.issue_cases v with ⟨hc, -⟩ | ⟨-, hi⟩
  · exact absurd hc h
  · exact hi

/-- What is still to happen is no part of what Check tests. -/
@[simp] theorem check_withActions (v : Word) (s : State) (as : List Action) :
    check v { s with actions := as } = check v s := rfl

/-- A write to CMD is issued while nothing is pending, and otherwise refused with BUSY (R65). -/
theorem step_of_cmdWrite {s : State} {v : Word} {rest : List Action}
    (ha : s.actions = .hostWrite 0x0000 4 v :: rest) :
    step s = .next (if s.busy then ({ s with actions := rest } : State).recordError .busy
      else ({ s with actions := rest } : State).issue v) := by
  rw [step_of_legalWrite ha (by decide), windowTarget_cmd _ _ (by decide)]
  rfl

/-- The completion step of a pending word ends with DONE 1 and BUSY 0, whatever the word. -/
theorem complete_done {s : State} (hb : s.busy = true) :
    ∃ t, complete s = .next t ∧ t.done = true ∧ t.busy = false := by
  rcases complete_cases s with ⟨hn, -⟩ | ⟨_, _, _, -, -, -, h⟩ | ⟨_, _, -, -, h⟩
  · simp [hn] at hb
  · exact ⟨_, h, rfl, rfl⟩
  · exact ⟨_, h, rfl, rfl⟩

theorem step_of_resetsNext {s : State} (h : s.resetsNext) : step s = .next s.popAction.resetEngine := by
  obtain ⟨rest, ha⟩ := h
  rw [step_of_action ha, performAction, State.popAction, ha, List.tail_cons]

/-- Settles O18: a write to CMD by whether a command is pending and what Check says, then the completion and
the reset. -/
theorem doneFollowsTheCommandLifecycle : Obligations.DoneFollowsTheCommandLifecycle := by
  refine ⟨fun s v rest ha => ⟨_, step_of_cmdWrite ha, ?accepted, ?rejected, ?refused⟩, ?completed, ?reset⟩
  case accepted =>
    intro hb hc
    rw [hb, if_neg Bool.false_ne_true, State.issue_accepted ((check_withActions v s rest).trans hc)]
    exact ⟨rfl, rfl⟩
  case rejected =>
    intro hb hc
    rw [hb, if_neg Bool.false_ne_true, State.issue_rejected (check_withActions v s rest ▸ hc)]
    exact ⟨State.rejectCommand_done .., by simpa using hb⟩
  case refused =>
    intro hb
    rw [hb, if_pos rfl]
    exact ⟨State.recordError_done .., by simpa using hb⟩
  case completed =>
    intro s hn hb
    rw [step_of_completesNext hn]
    exact complete_done hb
  case reset =>
    exact fun s hr => ⟨_, step_of_resetsNext hr, rfl, rfl⟩

end Sys2Proof.Machine

/-! PROOF. What a host access does at every offset of the window: refused where it is not a 32-bit aligned
one, a write by what its offset names, a read by the register map; and where the window stands
(20_memory.md R61-R69). -/

namespace Sys2Proof.Machine

/-! ### Illegal accesses, and legal reads -/

theorem State.hostRead_illegal {off : Offset} {n : Nat} (s : State) (h : n ≠ 4 ∨ off.toNat % 4 ≠ 0) :
    s.hostRead off n = { s.recordError .badAccess with returned := 0 :: s.returned } := by
  rw [State.hostRead, (legalAccess_eq_false off n).2 h, if_neg Bool.false_ne_true]

theorem State.hostWrite_illegal {off : Offset} {n : Nat} (v : Word) (s : State)
    (h : n ≠ 4 ∨ off.toNat % 4 ≠ 0) : s.hostWrite off n v = s.recordError .badAccess := by
  rw [State.hostWrite, (legalAccess_eq_false off n).2 h, if_neg Bool.false_ne_true]

theorem State.hostRead_legal {off : Offset} (s : State) (h4 : off.toNat % 4 = 0) :
    s.hostRead off 4 = { s with returned := s.readWindow off :: s.returned } :=
  if_pos ((legalAccess_iff off 4).2 ⟨rfl, h4⟩)

/-- What is still to happen is no part of what the window shows. -/
@[simp] theorem State.readWindow_withActions (s : State) (as : List Action) (off : Offset) :
    ({ s with actions := as } : State).readWindow off = s.readWindow off := rfl

/-- Settles O8: both accesses take the refusing branch, on the state with the access taken off. -/
theorem illegalAccessIsRefused : Obligations.IllegalAccessIsRefused := by
  refine fun s off n v rest h => ⟨fun ha => ?_, fun ha => ?_⟩
  · rw [step_of_action ha, performAction, State.hostRead_illegal _ h]
  · rw [step_of_action ha, performAction, State.hostWrite_illegal _ _ h]

/-! ### Legal writes to CMD, KEY and DIN -/

section WriteTarget
variable (v : Word) {s : State}

theorem State.writeTarget_cmd_idle (hb : s.busy = false) : s.writeTarget v .cmd = s.issue v := by
  rw [State.writeTarget, hb, if_neg Bool.false_ne_true]

theorem State.writeTarget_key_idle (j : Fin 4) (hb : s.busy = false) :
    s.writeTarget v (.key j) = { s with key := s.key.set j v, schedValid := false } := by
  rw [State.writeTarget, hb, if_neg Bool.false_ne_true, State.writeKey]

theorem State.writeTarget_din_idle (c : Fin 4) (hb : s.busy = false) :
    s.writeTarget v (.din c) = { s with din := s.din.set c v } := by
  rw [State.writeTarget, hb, if_neg Bool.false_ne_true, State.writeDin]

/-- While a command is pending the three writable targets refuse a write with BUSY (R66). -/
theorem State.writeTarget_busy {x : Target} (hb : s.busy = true)
    (hx : x = .cmd ∨ (∃ j, x = .key j) ∨ ∃ c, x = .din c) : s.writeTarget v x = s.recordError .busy := by
  rcases hx with rfl | ⟨j, rfl⟩ | ⟨c, rfl⟩
  · exact if_pos hb
  · exact if_pos hb
  · exact if_pos hb

end WriteTarget

/-- The aligned offsets of CMD, KEY and DIN name a writable target: the counterpart of `windowTarget_readOnly`. -/
theorem windowTarget_writable (cap : Bool) (off : Offset) (h4 : off.toNat % 4 = 0)
    (h : off.toNat = 0x0000 ∨ (0x0010 ≤ off.toNat ∧ off.toNat < 0x0030)) :
    windowTarget cap off = .cmd ∨ (∃ j, windowTarget cap off = .key j) ∨
      ∃ c, windowTarget cap off = .din c := by
  rcases h with h | ⟨hl, hu⟩
  · exact .inl (windowTarget_cmd cap off (by omega))
  · rcases Nat.lt_or_ge off.toNat 0x0020 with hk | hd
    · obtain ⟨j, hj⟩ : ∃ j : Fin 4, off.toNat = 0x0010 + 4 * j.val :=
        ⟨⟨(off.toNat - 0x0010) / 4, by omega⟩, by dsimp only; omega⟩
      exact .inr (.inl ⟨_, windowTarget_key cap off j hj⟩)
    · obtain ⟨c, hc⟩ : ∃ c : Fin 4, off.toNat = 0x0020 + 4 * c.val :=
        ⟨⟨(off.toNat - 0x0020) / 4, by omega⟩, by dsimp only; omega⟩
      exact .inr (.inr ⟨_, windowTarget_din cap off c hc⟩)

/-- Settles O9: what the offset names decides the write, and BUSY decides between the two outcomes of the
writable targets. -/
theorem legalWriteDoesWhatItsOffsetSays : Obligations.LegalWriteDoesWhatItsOffsetSays := by
  intro s off v rest ha h4 u
  have hstep : step s = .next (u.writeTarget v (windowTarget s.capTables off)) := step_of_legalWrite ha h4
  refine ⟨fun h hb => ?cmd, fun j h hb => ?key, fun c h hb => ?din, fun h hb => ?busy, fun h0 h => ?readOnly⟩
  case cmd => rw [hstep, windowTarget_cmd _ _ (by omega), State.writeTarget_cmd_idle v (s := u) hb]
  case key => rw [hstep, windowTarget_key _ _ j h, State.writeTarget_key_idle v (s := u) j hb]
  case din => rw [hstep, windowTarget_din _ _ c h, State.writeTarget_din_idle v (s := u) c hb]
  case busy => rw [hstep, State.writeTarget_busy v (s := u) hb (windowTarget_writable _ _ h4 h)]
  case readOnly => exact step_of_readOnlyWrite ha h4 h0 h

/-! ### The register map, read -/

/-- An offset of the window, written as a number, is that number. -/
theorem offset_toNat {m : Nat} (h : m < 0x2000) : (BitVec.ofNat 13 m).toNat = m :=
  (BitVec.toNat_ofNat m 13).trans (Nat.mod_eq_of_lt h)

section RegisterMapReads
variable (s : State)

theorem State.readWindow_cmd : s.readWindow 0x0000 = s.cmd :=
  State.readWindow_of_target (windowTarget_cmd _ _ (by decide))

theorem State.readWindow_key (j : Fin 4) : s.readWindow (BitVec.ofNat 13 (0x0010 + 4 * j.val)) = s.key[j] :=
  State.readWindow_of_target (windowTarget_key _ _ j (offset_toNat (by omega)))

theorem State.readWindow_din (c : Fin 4) : s.readWindow (BitVec.ofNat 13 (0x0020 + 4 * c.val)) = s.din[c] :=
  State.readWindow_of_target (windowTarget_din _ _ c (offset_toNat (by omega)))

theorem State.readWindow_dout (c : Fin 4) : s.readWindow (BitVec.ofNat 13 (0x0030 + 4 * c.val)) = s.dout[c] :=
  State.readWindow_of_target (windowTarget_dout _ _ c (offset_toNat (by omega)))

theorem State.readWindow_state (c : Fin 4) : s.readWindow (BitVec.ofNat 13 (0x0040 + 4 * c.val)) = s.state[c] :=
  State.readWindow_of_target (windowTarget_state _ _ c (offset_toNat (by omega)))

theorem State.readWindow_rk (k : Fin 44) :
    s.readWindow (BitVec.ofNat 13 (0x0100 + 4 * k.val)) = if s.schedValid then s.rk[k] else 0 :=
  State.readWindow_of_target (windowTarget_rk _ _ k (offset_toNat (by omega)))

theorem State.readWindow_sbox (i : Byte) :
    s.readWindow (BitVec.ofNat 13 (0x0400 + 4 * i.toNat)) = (sbox i).setWidth 32 :=
  State.readWindow_of_target (windowTarget_sbox _ _ i.toFin (offset_toNat (by omega)))

theorem State.readWindow_unmapped {off : Offset}
    (h : (0x0050 ≤ off.toNat ∧ off.toNat < 0x0100) ∨ (0x01B0 ≤ off.toNat ∧ off.toNat < 0x0400) ∨
      (0x0800 ≤ off.toNat ∧ off.toNat < 0x1000)) : s.readWindow off = 0 :=
  State.readWindow_of_target (windowTarget_unmapped _ _ h)

theorem State.readWindow_noTables {off : Offset} (h : 0x1000 ≤ off.toNat) (hcap : s.capTables = false) :
    s.readWindow off = 0 :=
  State.readWindow_of_target (hcap ▸ windowTarget_noTables off h)

/-- Without the accelerator the T windows are unmapped; with it they name the tables, gated by TABLES_VALID
(R62, R68). -/
theorem State.readWindow_table (t : Fin 4) (i : Fin 256) :
    s.readWindow (BitVec.ofNat 13 (0x1000 + 0x400 * t.val + 4 * i.val)) =
      if s.capTables && s.tablesValid then s.tableEntry t i else 0 := by
  have hoff := offset_toNat (m := 0x1000 + 0x400 * t.val + 4 * i.val) (by omega)
  cases hcap : s.capTables with
  | false => exact s.readWindow_noTables (by rw [hoff]; omega) hcap
  | true =>
    rw [State.readWindow_of_target (hcap ▸ windowTarget_table _ t i hoff), State.readTarget,
      State.tablesReady, hcap]

end RegisterMapReads

/-- Settles O10: a legal read only adds what the window shows, and the window shows the register map row by row. -/
theorem legalReadReturnsTheRegisterMap : Obligations.LegalReadReturnsTheRegisterMap := by
  refine ⟨fun s off rest ha h4 => ?read, fun s => ⟨s.readWindow_cmd, s.readWindow_status, s.readWindow_result,
    s.readWindow_id, s.readWindow_key, s.readWindow_din, s.readWindow_dout, s.readWindow_state, s.readWindow_rk,
    s.readWindow_sbox, fun i => ⟨s.readWindow_table 0 i, s.readWindow_table 1 i, s.readWindow_table 2 i,
    s.readWindow_table 3 i⟩, fun off h => ?unmapped⟩⟩
  case read => rw [step_of_action ha, performAction, State.hostRead_legal _ h4, State.readWindow_withActions]
  case unmapped =>
    rcases h with h | h | h | ⟨h, hcap⟩
    · exact s.readWindow_unmapped (.inl h)
    · exact s.readWindow_unmapped (.inr (.inl h))
    · exact s.readWindow_unmapped (.inr (.inr h))
    · exact s.readWindow_noTables h hcap

/-! ### Where the window stands -/

theorem engineBase_setWidth : engineBase.setWidth 13 = 0 :=
  BitVec.setWidth_append_eq_right

/-- A number's remainder by the window's size is its low 13 bits. -/
theorem engineBase_aligned : engineBase.toNat % 0x2000 = 0 :=
  calc engineBase.toNat % 0x2000
    _ = (engineBase.setWidth 13).toNat := (BitVec.toNat_setWidth 13 engineBase).symm
    _ = 0 := congrArg BitVec.toNat engineBase_setWidth

/-- A distance that fits the window is not cut by it. -/
theorem setWidth_setWidth_of_lt {d : BitVec 32} (h : d.toNat < 0x2000) : (d.setWidth 13).setWidth 32 = d := by
  apply BitVec.eq_of_toNat_eq
  simp only [BitVec.toNat_setWidth]
  omega

/-- An address reaches an offset exactly where it is the base plus that offset (R61). -/
theorem windowOffset_eq_some_iff (addr : BitVec 32) (off : Offset) :
    windowOffset addr = some off ↔ addr = engineBase + off.setWidth 32 := by
  constructor
  · intro h
    obtain ⟨hlt, hoff⟩ := Option.ite_none_right_eq_some.1 h
    injection hoff with hoff
    rw [← hoff, setWidth_setWidth_of_lt hlt, BitVec.add_comm, BitVec.sub_add_cancel]
  · rintro rfl
    have hd : engineBase + off.setWidth 32 - engineBase = off.setWidth 32 := by
      rw [BitVec.add_comm, BitVec.add_sub_cancel]
    have hlt : (off.setWidth 32).toNat < 0x2000 := by
      rw [BitVec.toNat_setWidth_of_le (by decide)]
      exact off.isLt
    rw [windowOffset, hd, if_pos hlt, BitVec.setWidth_setWidth_of_le _ (by decide), BitVec.setWidth_eq]

theorem memRead_eq_some_iff (addr : BitVec 32) (n : Nat) (a : Action) :
    memRead addr n = some a ↔ ∃ off : Offset, addr = engineBase + off.setWidth 32 ∧ a = .hostRead off n := by
  simp only [memRead, Option.map_eq_some_iff, windowOffset_eq_some_iff, eq_comm (a := a)]

theorem memWrite_eq_some_iff (addr : BitVec 32) (n : Nat) (v : Word) (a : Action) :
    memWrite addr n v = some a ↔
      ∃ off : Offset, addr = engineBase + off.setWidth 32 ∧ a = .hostWrite off n v := by
  simp only [memWrite, Option.map_eq_some_iff, windowOffset_eq_some_iff, eq_comm (a := a)]

/-- Settles O14: the base is a page followed by zero bits, and an access reaches the engine exactly where its
address is the base plus an offset. -/
theorem windowIsReachedAtEngineBase : Obligations.WindowIsReachedAtEngineBase :=
  ⟨engineBase_aligned,
    fun off n v =>
      ⟨(memRead_eq_some_iff _ n _).2 ⟨off, rfl, rfl⟩, (memWrite_eq_some_iff _ n v _).2 ⟨off, rfl, rfl⟩⟩,
    fun addr n v a => ⟨(memRead_eq_some_iff addr n a).1, (memWrite_eq_some_iff addr n v a).1⟩⟩

end Sys2Proof.Machine

/-! PROOF. A command word written to CMD while the engine is idle: accepted, or rejected with its code
recorded first or as an overflow (30_encoding.md R96). -/

namespace Sys2Proof.Machine

/-- With no error recorded yet, a rejection records its code (R253). -/
theorem State.rejectCommand_first (code : ErrCode) (s : State) (h : s.err = .none) :
    State.rejectCommand code s = { s with done := true, err := code } :=
  State.recordError_first code { s with done := true } h

/-- With an error already recorded, a rejection keeps it and raises ERR_OVF (R253). -/
theorem State.rejectCommand_later (code : ErrCode) (s : State) (h : s.err ≠ .none) :
    State.rejectCommand code s = { s with done := true, errOvf := true } :=
  State.recordError_later code { s with done := true } h

section CmdWriteWhileIdle
variable {s : State} {v : Word} {rest : List Action}
  (ha : s.actions = .hostWrite 0x0000 4 v :: rest) (hb : s.busy = false)
include ha hb

theorem step_of_cmdWrite_idle : step s = .next (({ s with actions := rest } : State).issue v) := by
  rw [step_of_cmdWrite ha, hb, if_neg Bool.false_ne_true]

theorem step_of_cmdWrite_accepted (hc : check v s = .none) :
    step s = .next (State.acceptCommand v { s with actions := rest, cmd := v }) := by
  rw [step_of_cmdWrite_idle ha hb, State.issue_accepted ((check_withActions v s rest).trans hc)]

theorem step_of_cmdWrite_rejected (hc : check v s ≠ .none) :
    step s = .next (State.rejectCommand (check v s) { s with actions := rest, cmd := v }) := by
  rw [step_of_cmdWrite_idle ha hb, State.issue_rejected (check_withActions v s rest ▸ hc), check_withActions]

end CmdWriteWhileIdle

/-- Settles O15: the word is accepted, or rejected with the code its check gives, which is recorded where no
error stood before and otherwise raises ERR_OVF. -/
theorem issueAcceptsOrRejects : Obligations.IssueAcceptsOrRejects := by
  refine fun s v rest ha hb => ⟨step_of_cmdWrite_accepted ha hb, fun hc he => ?first, fun hc he => ?later⟩
  case first =>
    rw [step_of_cmdWrite_rejected ha hb hc,
      State.rejectCommand_first _ { s with actions := rest, cmd := v } he]
  case later =>
    rw [step_of_cmdWrite_rejected ha hb hc,
      State.rejectCommand_later _ { s with actions := rest, cmd := v } he]

end Sys2Proof.Machine

/-! PROOF. Without the accelerator: its command words, its windows and its flags are gone, and nothing else tells
whether it is there (44_table_accelerator.md R228). -/

namespace Sys2Proof.Machine

/-! ### The check of a command word -/

/-- Check asks for the accelerator right after the opcode (R98). -/
theorem check_unsupported {v : Word} {s : State} (hcap : s.capTables = false)
    (hop : v.toNat % 256 ∈ [0x0D, 0x0E, 0x0F]) : check v s = .unsupported := by
  have hlegal : ¬ v.toNat % 256 > 0x10 := by
    simp only [List.mem_cons, List.not_mem_nil, or_false] at hop
    omega
  unfold check; dsimp only
  rw [opcField_toNat, if_neg hlegal, if_pos ⟨hop, by simp [hcap]⟩]

/-- CAP_TABLES enters Check at two places, directly and through TABLES_VALID, and both ask first for one of the
accelerator's opcodes. -/
theorem check_withCapTables {v : Word} (s : State) (present : Bool)
    (hop : v.toNat % 256 ∉ [0x0D, 0x0E, 0x0F]) : check v { s with capTables := present } = check v s := by
  have hop' : v.toNat % 256 ∉ [0x0E, 0x0F] := fun h => hop (List.mem_cons_of_mem _ h)
  simp only [check, opcField_toNat, hop, hop', false_and, if_false]

/-! ### The other commands -/

section OtherCommands
variable {i : Instr} (present : Bool)

/-- A command that needs the tables needs the accelerator that holds them (R95). -/
theorem needsTables_of_needsAccel_eq_false (ha : needsAccel i = false) : needsTables i = false := by
  cases i with
  | genTables | tRound _ | encryptT => cases ha
  | _ => rfl

theorem checkInstr_withCapTables (s : State) (ha : needsAccel i = false) :
    checkInstr i { s with capTables := present } = checkInstr i s := by
  have ht := needsTables_of_needsAccel_eq_false ha
  simp only [checkInstr, ha, ht, Bool.false_eq_true, false_and, if_false]

theorem State.rejectCommand_withCapTables (code : ErrCode) (s : State) :
    State.rejectCommand code { s with capTables := present } =
      { State.rejectCommand code s with capTables := present } := by
  unfold State.rejectCommand State.recordError; dsimp only
  split
  · rfl
  · rfl

/-- A checked command whose effect does not depend on CAP_TABLES does not either. -/
theorem performChecked_withCapTables {s e t : State} (ha : needsAccel i = false)
    (h : performChecked i s e = .next t) :
    performChecked i { s with capTables := present } { e with capTables := present } =
      .next { t with capTables := present } := by
  have hc := checkInstr_withCapTables present s ha
  rcases performChecked_cases i s e with ⟨hpass, hp⟩ | ⟨hfail, hp⟩
  · obtain rfl : e = t := Host.Outcome.next.inj (hp.symm.trans h)
    rw [performChecked_pass (hc.trans hpass)]
  · obtain rfl := Host.Outcome.next.inj (hp.symm.trans h)
    rw [performChecked_fail (hc ▸ hfail), hc, State.rejectCommand_withCapTables]

/-- Three of the commands outside the accelerator are checked; the others always have their effect. -/
theorem exec_withCapTables {s t : State} (ha : needsAccel i = false) (h : exec i s = .next t) :
    exec i { s with capTables := present } = .next { t with capTables := present } := by
  cases i with
  | genTables | tRound _ | encryptT => cases ha
  | addRoundKey _ | round _ | finalRound => exact performChecked_withCapTables present ha h
  | _ =>
    obtain rfl := Host.Outcome.next.inj h
    rfl

end OtherCommands

/-! ### The flags and the windows -/

theorem State.tablesReady_noTables {s : State} (hcap : s.capTables = false) : s.tablesReady = false := by
  rw [State.tablesReady, hcap, Bool.false_and]

/-- Settles O21: the check of the accelerator's opcodes and the issue that rejects them, the two bits of STATUS,
the unmapped windows, and the independence of every other check and effect from CAP_TABLES. -/
theorem withoutTablesTheAcceleratorIsAbsent : Obligations.WithoutTablesTheAcceleratorIsAbsent := by
  refine ⟨fun v s hcap hop => ?commands, fun s hcap => ?flags, fun s off rest hcap hoff => ?windows,
    fun v s present hop => check_withCapTables s present hop,
    fun i s t present ha h => exec_withCapTables present ha h⟩
  case commands =>
    have hc := check_unsupported hcap hop
    exact ⟨hc, fun rest ha hb => hc ▸ step_of_cmdWrite_rejected ha hb (by simp [hc])⟩
  case flags =>
    obtain ⟨-, -, htables, -, -, hbit⟩ := s.statusRead_flags
    rw [State.readWindow_status]
    exact ⟨htables.trans (State.tablesReady_noTables hcap), hbit.trans hcap⟩
  case windows =>
    exact ⟨s.readWindow_noTables hoff hcap, fun v ha h4 =>
      step_of_readOnlyWrite ha h4 (by omega) (.inr (by omega))⟩

end Sys2Proof.Machine

/-! PROOF. The table round column by column, and T_ROUND where its checks pass (44_table_accelerator.md R222,
R226). -/

namespace Sys2Proof.Machine

/-- Column `c` of the table round, from one byte of each row of the state (R222). -/
theorem tableRound_getElem (s : State) (W : KeySchedule) (S : Block) (n : Fin 11) (c : Fin 4) :
    (tableRound s W S n)[c] =
      s.t0[(lane S 0 c).toFin] ^^^ s.t1[(lane S 1 (c + 1)).toFin] ^^^
        s.t2[(lane S 2 (c + 2)).toFin] ^^^ s.t3[(lane S 3 (c + 3)).toFin] ^^^ W[4 * n.val + c.val] := by
  simp [tableRound, lane]

/-- The round numbers 0..9 name their own round-key group. -/
theorem roundGroup_ofNat (n : Fin 10) : roundGroup (BitVec.ofNat 4 n.val) = n.castSucc := by
  revert n; decide

theorem wf_tRound_ofNat {n : Fin 10} (hn : n ≠ 0) : (Instr.tRound (BitVec.ofNat 4 n.val)).wf = true := by
  revert n; decide

theorem exec_tRound_pass {n : BitVec 4} {s : State} (hw : (Instr.tRound n).wf = true)
    (hcap : s.capTables = true) (ht : s.tablesValid = true) (hs : s.schedValid = true) :
    exec (.tRound n) s = .next { s with state := tableRound s s.rk s.state (roundGroup n) } :=
  performChecked_pass ((checkInstr_none_iff _ s).2
    ⟨fun _ => hcap, hw, fun _ => by rw [State.tablesReady, hcap, ht, Bool.and_self], fun _ => hs⟩)

/-- Settles O36: the command passes its checks, and its effect is the table round with group `n`. -/
theorem tRoundLooksUpFourTables : Obligations.TRoundLooksUpFourTables := by
  intro s n hn hcap ht hs
  refine ⟨_, exec_tRound_pass (wf_tRound_ofNat hn) hcap ht hs, fun c => ?_, rfl⟩
  rw [roundGroup_ofNat]
  exact tableRound_getElem s s.rk s.state n.castSucc c

end Sys2Proof.Machine

/-! PROOF. Check as the first of six conditions on the number a command word is (60_exceptions.md R254). -/

namespace Sys2Proof.Machine

/-- The opcodes 0x0D, 0x0E and 0x0F, listed by Check, are a range. -/
theorem accelOpcode_iff (op : Nat) : op = 0x0D ∨ op = 0x0E ∨ op = 0x0F ↔ 0x0D ≤ op ∧ op ≤ 0x0F := by
  omega

/-- Read on numbers, Check asks the six conditions in their order, but for the parts of RESERVED and of
BAD_ROUND, which it asks one after the other: `ite_or` joins them. -/
theorem check_eq_firstFailing (v : Word) (s : State) :
    check v s = firstFailing (checkConditions v.toNat s) := by
  have hrsv : rsvField v = 0 ↔ v.toNat / 1048576 = 0 := by rw [← rsvField_toNat]; exact BitVec.toNat_eq
  have harg : argField v = 0 ↔ v.toNat / 256 % 256 = 0 := by rw [← argField_toNat]; exact BitVec.toNat_eq
  simp only [check, opcField_toNat, rndField_toNat, hrsv, harg, checkConditions, firstFailing, ite_or,
    List.mem_cons, List.not_mem_nil, or_false, not_or, accelOpcode_iff, and_assoc, decide_eq_true_eq, ne_eq,
    Bool.not_eq_true, gt_iff_lt, Nat.lt_iff_add_one_le, Nat.reduceAdd]

theorem check_illegalOpc {v : Word} (s : State) (hop : 0x11 ≤ v.toNat % 256) : check v s = .illegalOpc := by
  rw [check_eq_firstFailing, checkConditions, firstFailing, if_pos (decide_eq_true hop)]

/-- Settles O6: the six conditions are Check's own, their codes count from 1 to 6, and the examples are words
whose conditions evaluate. -/
theorem checkReportsTheFirstFailure : Obligations.CheckReportsTheFirstFailure := by
  refine ⟨check_eq_firstFailing, fun v s => rfl, fun s htables _ hcap => ?examples⟩
  have hready : s.tablesReady = false := by rw [State.tablesReady, htables, Bool.and_false]
  refine ⟨?_, ?_, ?_, fun v hop => check_illegalOpc s hop.ge⟩
  all_goals
    rw [check_eq_firstFailing]
    simp [checkConditions, firstFailing, hready, hcap]

end Sys2Proof.Machine

/-! PROOF. The error report: what keeps it, what lowers it, and that nothing but a read of STATUS tells one
report from another (60_exceptions.md R253). -/

namespace Sys2Proof.Machine

/-! ### Only CLR_ERR and reset lower the report -/

/-- The report is not lowered: a recorded error stays the one reported, and a set ERR_OVF stays set. -/
def KeepsReport (s t : State) : Prop :=
  (s.err ≠ .none → t.err = s.err) ∧ (s.errOvf = true → t.errOvf = true)

theorem KeepsReport.of_eq {s t : State} (he : t.err = s.err) (ho : t.errOvf = s.errOvf) : KeepsReport s t :=
  ⟨fun _ => he, fun h => ho.trans h⟩

theorem KeepsReport.finishCommand {s t : State} (h : KeepsReport s t) : KeepsReport s t.finishCommand := h

theorem State.recordError_keepsReport (code : ErrCode) (s : State) : KeepsReport s (s.recordError code) := by
  by_cases h : s.err = .none
  · rw [State.recordError_first code s h]
    exact ⟨fun hne => absurd h hne, id⟩
  · rw [State.recordError_later code s h]
    exact ⟨fun _ => rfl, fun _ => rfl⟩

theorem State.rejectCommand_keepsReport (code : ErrCode) (s : State) : KeepsReport s (s.rejectCommand code) :=
  State.recordError_keepsReport code { s with done := true }

theorem State.hostRead_keepsReport (off : Offset) (n : Nat) (s : State) : KeepsReport s (s.hostRead off n) := by
  unfold State.hostRead
  split
  · exact .of_eq rfl rfl
  · exact State.recordError_keepsReport .badAccess s

theorem State.issue_keepsReport (v : Word) (s : State) : KeepsReport s (s.issue v) := by
  rcases s.issue_cases v with ⟨-, h⟩ | ⟨-, h⟩ <;> rw [h]
  · exact .of_eq rfl rfl
  · exact State.rejectCommand_keepsReport _ { s with cmd := v }

theorem State.writeTarget_keepsReport (v : Word) (s : State) (x : Target) :
    KeepsReport s (s.writeTarget v x) := by
  rcases s.writeTarget_cases v x with ⟨-, -, h⟩ | ⟨j, -, -, h⟩ | ⟨c, -, -, h⟩ | h | h <;> rw [h]
  · exact s.issue_keepsReport v
  · exact .of_eq rfl rfl
  · exact .of_eq rfl rfl
  · exact s.recordError_keepsReport .busy
  · exact s.recordError_keepsReport .badAccess

theorem State.hostWrite_keepsReport (off : Offset) (n : Nat) (v : Word) (s : State) :
    KeepsReport s (s.hostWrite off n v) := by
  unfold State.hostWrite
  split
  · exact s.writeTarget_keepsReport v _
  · exact s.recordError_keepsReport .badAccess

/-- CLR_ERR is the one command that writes the report other than by recording an error. -/
theorem exec_keepsReport {i : Instr} {s t : State} (h : exec i s = .next t) (hi : i ≠ .clrErr) :
    KeepsReport s t := by
  rcases exec_effects h with ⟨-, rfl⟩ | ⟨-, -, -, -, ⟨hclr, -⟩ | ⟨-, he, ho⟩, -⟩
  · exact s.rejectCommand_keepsReport _
  · exact absurd hclr hi
  · exact .of_eq he ho

theorem complete_keepsReport {s t : State} (h : complete s = .next t)
    (hclr : ∀ w, s.pending = some w → decode w ≠ .ok .clrErr) : KeepsReport s t := by
  rcases complete_cases s with ⟨-, hc⟩ | ⟨w, i, u, hp, hd, hu, hc⟩ | ⟨w, e, -, -, hc⟩ <;>
    obtain rfl := Host.Outcome.next.inj (hc.symm.trans h)
  · exact .of_eq rfl rfl
  · exact (exec_keepsReport hu fun hi => hclr w hp (hi ▸ hd)).finishCommand
  · exact (s.rejectCommand_keepsReport _).finishCommand

theorem step_keepsReport {s t : State} (h : step s = .next t) (hreset : ¬ s.resetsNext)
    (hclr : ¬ s.completes .clrErr) : KeepsReport s t := by
  rcases step_cases h with ⟨off, n, rest, -, rfl⟩ | ⟨off, n, v, rest, -, rfl⟩ | ⟨hr, -⟩ | ⟨hn, hc⟩
  · exact State.hostRead_keepsReport off n { s with actions := rest }
  · exact State.hostWrite_keepsReport off n v { s with actions := rest }
  · exact absurd hr hreset
  · exact complete_keepsReport (s := s.popAction) hc fun w hp hd => hclr ⟨hn, w, hp, hd⟩

/-! ### From another report -/

section FromAnotherReport
variable (e : ErrCode) (o : Bool)

theorem State.rejectCommand_withReport (code : ErrCode) (s : State) :
    ∃ e' o', (s.withReport e o).rejectCommand code = (s.rejectCommand code).withReport e' o' :=
  State.recordError_withReport code e o { s with done := true }

theorem State.issue_withReport (v : Word) (s : State) :
    ∃ e' o', (s.withReport e o).issue v = (s.issue v).withReport e' o' := by
  by_cases hc : check v s = .none
  · rw [State.issue_accepted hc, State.issue_accepted ((check_withReport e o s v).trans hc)]
    exact ⟨e, o, rfl⟩
  · rw [State.issue_rejected hc, State.issue_rejected (check_withReport e o s v ▸ hc)]
    exact State.rejectCommand_withReport e o (check v s) { s with cmd := v }

/-- What a write does turns on its target and on BUSY, neither of which is the report. -/
theorem State.writeTarget_withReport (v : Word) (s : State) (x : Target) :
    ∃ e' o', (s.withReport e o).writeTarget v x = (s.writeTarget v x).withReport e' o' := by
  by_cases hx : x = .cmd ∨ (∃ j, x = .key j) ∨ ∃ c, x = .din c
  · cases hb : s.busy with
    | true =>
      rw [State.writeTarget_busy v hb hx, State.writeTarget_busy v (s := s.withReport e o) hb hx]
      exact State.recordError_withReport .busy e o s
    | false =>
      rcases hx with rfl | ⟨j, rfl⟩ | ⟨c, rfl⟩
      · rw [State.writeTarget_cmd_idle v hb, State.writeTarget_cmd_idle v (s := s.withReport e o) hb]
        exact State.issue_withReport e o v s
      · rw [State.writeTarget_key_idle v j hb, State.writeTarget_key_idle v (s := s.withReport e o) j hb]
        exact ⟨e, o, rfl⟩
      · rw [State.writeTarget_din_idle v c hb, State.writeTarget_din_idle v (s := s.withReport e o) c hb]
        exact ⟨e, o, rfl⟩
  · simp only [not_or, not_exists] at hx
    obtain ⟨hc, hk, hd⟩ := hx
    rw [State.writeTarget_readOnly v s hc hk hd, State.writeTarget_readOnly v _ hc hk hd]
    exact State.recordError_withReport .badAccess e o s

theorem State.hostWrite_withReport (off : Offset) (n : Nat) (v : Word) (s : State) :
    ∃ e' o', (s.withReport e o).hostWrite off n v = (s.hostWrite off n v).withReport e' o' := by
  unfold State.hostWrite
  split
  · exact State.writeTarget_withReport e o v s _
  · exact State.recordError_withReport .badAccess e o s

/-- STATUS is the one register that shows the report. -/
theorem State.readTarget_withReport (s : State) {x : Target} (hx : x ≠ .status) :
    (s.withReport e o).readTarget x = s.readTarget x := by
  cases x with
  | status => exact absurd rfl hx
  | _ => rfl

/-- Only the word at 0x0004 is STATUS (R62). -/
theorem windowTarget_ne_status (cap : Bool) (off : Offset) (h : off.toNat < 0x0004 ∨ 0x0008 ≤ off.toNat) :
    windowTarget cap off ≠ .status := by
  rcases h with h | h
  · simp [windowTarget_cmd cap off h]
  · unfold windowTarget; dsimp only
    rw [if_neg (by omega), if_neg (by omega)]
    repeat' refine iteInduction (motive := (· ≠ Target.status)) (fun _ => ?_) (fun _ => ?_)
    all_goals exact nofun

theorem State.hostRead_withReport {off : Offset} {n : Nat} (s : State) (h : ¬ (off = 0x0004 ∧ n = 4)) :
    ∃ e' o', (s.withReport e o).hostRead off n = (s.hostRead off n).withReport e' o' := by
  by_cases hl : n = 4 ∧ off.toNat % 4 = 0
  · obtain ⟨rfl, h4⟩ := hl
    have hoff : off.toNat ≠ 0x0004 := fun h' => h ⟨BitVec.eq_of_toNat_eq h', rfl⟩
    have hr : (s.withReport e o).readWindow off = s.readWindow off :=
      s.readTarget_withReport e o (windowTarget_ne_status s.capTables off (by omega))
    rw [State.hostRead_legal _ h4, State.hostRead_legal _ h4, hr]
    exact ⟨e, o, rfl⟩
  · have hl' : n ≠ 4 ∨ off.toNat % 4 ≠ 0 := by omega
    obtain ⟨e', o', hr⟩ := State.recordError_withReport .badAccess e o s
    rw [State.hostRead_illegal _ hl', State.hostRead_illegal _ hl', hr]
    exact ⟨e', o', rfl⟩

/-- The completion step of a pending word that is no command turns it away. -/
theorem complete_of_undecoded {s : State} {w : Word} {err : DecodeError} (hp : s.pending = some w)
    (hd : decode w = .error err) : complete s = .next (s.rejectCommand (check w s)).finishCommand := by
  simp [complete, hp, hd]

theorem complete_withReport {s t : State} (h : complete s = .next t) :
    ∃ e' o', complete (s.withReport e o) = .next (t.withReport e' o') := by
  rcases complete_cases s with ⟨hp, hc⟩ | ⟨w, i, u, hp, hd, hu, hc⟩ | ⟨w, err, hp, hd, hc⟩ <;>
    obtain rfl := Host.Outcome.next.inj (hc.symm.trans h)
  · exact ⟨e, o, complete_idle (s := s.withReport e o) hp⟩
  · obtain ⟨e', o', hu'⟩ := exec_withReport hu e o
    exact ⟨e', o', complete_of_command (s := s.withReport e o) hp hd hu'⟩
  · obtain ⟨e', o', hr⟩ := State.rejectCommand_withReport e o (check w s) s
    refine ⟨e', o', (complete_of_undecoded (s := s.withReport e o) hp hd).trans ?_⟩
    rw [check_withReport, hr]
    rfl

/-- Every step but a read of STATUS goes to the same state but for the report. -/
theorem step_withReport {s t : State} (h : step s = .next t) (hread : ¬ s.readsStatusNext) :
    ∃ e' o', step (s.withReport e o) = .next (t.withReport e' o') := by
  rcases step_cases h with ⟨off, n, rest, ha, rfl⟩ | ⟨off, n, v, rest, ha, rfl⟩ | ⟨hr, rfl⟩ | ⟨hn, hc⟩
  · have hoff : ¬ (off = 0x0004 ∧ n = 4) := by
      rintro ⟨rfl, rfl⟩
      exact hread ⟨rest, ha⟩
    obtain ⟨e', o', hr⟩ := State.hostRead_withReport e o { s with actions := rest } hoff
    exact ⟨e', o', (step_of_action (s := s.withReport e o) ha).trans (congrArg _ hr)⟩
  · obtain ⟨e', o', hw⟩ := State.hostWrite_withReport e o off n v { s with actions := rest }
    exact ⟨e', o', (step_of_action (s := s.withReport e o) ha).trans (congrArg _ hw)⟩
  · exact ⟨.none, false, step_of_resetsNext (s := s.withReport e o) hr⟩
  · obtain ⟨e', o', hc'⟩ := complete_withReport e o hc
    exact ⟨e', o', (step_of_completesNext (s := s.withReport e o) hn).trans hc'⟩

end FromAnotherReport

/-- A legal read of STATUS only adds STATUS as it stands. -/
theorem step_of_statusRead {s : State} (h : s.readsStatusNext) :
    step s = .next { s.popAction with returned := s.statusRead :: s.returned } := by
  obtain ⟨rest, ha⟩ := h
  rw [step_of_action ha, performAction, State.hostRead_legal _ (by decide), State.readWindow_withActions,
    State.readWindow_status, State.popAction, ha, List.tail_cons]

/-- Settles O16: recording by whether an error stands, the report lowered only where it is not kept, and the
step from another report by whether it reads STATUS. -/
theorem errorReportIsSticky : Obligations.ErrorReportIsSticky := by
  refine ⟨fun s code => ⟨s.recordError_first code, s.recordError_later code⟩, fun s t h hlow => ?lowered,
    fun s t e o h => ?otherReport⟩
  case lowered =>
    by_contra hno
    obtain ⟨hreset, hclr⟩ := not_or.1 hno
    obtain ⟨hkeep, hovf⟩ := step_keepsReport h hreset hclr
    rcases hlow with ⟨hne, hchange⟩ | ⟨hset, hfell⟩
    · exact hchange (hkeep hne)
    · exact Bool.false_ne_true (hfell.symm.trans (hovf hset))
  case otherReport =>
    by_cases hread : s.readsStatusNext
    · obtain rfl := Host.Outcome.next.inj ((step_of_statusRead hread).symm.trans h)
      exact ⟨e, o, fun hno => absurd hread hno, fun _ => step_of_statusRead (s := s.withReport e o) hread⟩
    · obtain ⟨e', o', hstep⟩ := step_withReport e o h hread
      exact ⟨e', o', fun _ => hstep, fun hyes => absurd hyes hread⟩

end Sys2Proof.Machine

/-! PROOF. The decoder and the encoder: what decodes, to what, and why a word does not (30_encoding.md R90-R103). -/

namespace Sys2Proof

/-! ### The opcode map and the operands -/

/-- The opcode map names a command exactly at the opcodes 0x00..0x10 (R91). -/
theorem instrOfOpcode_isSome (opc : Nat) (arg : Byte) (rnd : BitVec 4) :
    (instrOfOpcode opc arg rnd).isSome ↔ opc ≤ 0x10 := by
  match opc with
  | 0 | 1 | 2 | 3 | 4 | 5 | 6 | 7 | 8 | 9 | 10 | 11 | 12 | 13 | 14 | 15 | 16 => exact iff_of_true rfl (by decide)
  | _ + 17 => exact iff_of_false nofun (by omega)

theorem instrOfOpcode_operands (i : Instr) :
    instrOfOpcode i.opcode.toNat i.argOperand i.rndOperand = some i := by
  cases i <;> rfl

theorem argOperand_of_not_usesArg {i : Instr} (h : usesArg i.opcode = false) : i.argOperand = 0 := by
  cases i with
  | xtime _ | sbox _ => cases h
  | _ => rfl

theorem rndOperand_of_not_usesRnd {i : Instr} (h : usesRnd i.opcode = false) : i.rndOperand = 0 := by
  cases i with
  | addRoundKey _ | round _ | tRound _ => cases h
  | _ => rfl

/-! ### The fields of a word -/

theorem reservedNonzero_eq_false (v : Word) :
    reservedNonzero v = false ↔ rsvField v = 0 ∧ (usesArg (opcField v) = false → argField v = 0) ∧
      (usesRnd (opcField v) = false → rndField v = 0) := by
  unfold reservedNonzero
  cases usesArg (opcField v) <;> cases usesRnd (opcField v) <;> simp

/-- The per-instruction family EncodedFields, for any command. -/
theorem encode_fields (i : Instr) : Laws.EncodedFields.Statement i := by
  cases i with
  | nop => exact Laws.EncodedFields.nop
  | loadBlock => exact Laws.EncodedFields.loadBlock
  | storeBlock => exact Laws.EncodedFields.storeBlock
  | expandKey => exact Laws.EncodedFields.expandKey
  | addRoundKey n => exact Laws.EncodedFields.addRoundKey n
  | subBytes => exact Laws.EncodedFields.subBytes
  | shiftRows => exact Laws.EncodedFields.shiftRows
  | mixColumns => exact Laws.EncodedFields.mixColumns
  | round n => exact Laws.EncodedFields.round n
  | finalRound => exact Laws.EncodedFields.finalRound
  | encrypt => exact Laws.EncodedFields.encrypt
  | xtime arg => exact Laws.EncodedFields.xtime arg
  | sbox arg => exact Laws.EncodedFields.sbox arg
  | genTables => exact Laws.EncodedFields.genTables
  | tRound n => exact Laws.EncodedFields.tRound n
  | encryptT => exact Laws.EncodedFields.encryptT
  | clrErr => exact Laws.EncodedFields.clrErr

theorem reservedNonzero_encode (i : Instr) : reservedNonzero (encode i) = false := by
  obtain ⟨hopc, harg, hrnd, hrsv⟩ := encode_fields i
  rw [reservedNonzero_eq_false, hopc, harg, hrnd]
  exact ⟨hrsv, argOperand_of_not_usesArg, rndOperand_of_not_usesRnd⟩

/-! ### What decodes -/

/-- The three outcomes of the decoder, by the opcode map and the reserved fields. -/
theorem decode_outcomes (v : Word) :
    (∀ i, decode v = .ok i ↔
      instrOfOpcode (opcField v).toNat (argField v) (rndField v) = some i ∧ reservedNonzero v = false) ∧
    (decode v = .error .illegalOpc ↔
      ¬ (instrOfOpcode (opcField v).toNat (argField v) (rndField v)).isSome) ∧
    (decode v = .error .reserved ↔
      (instrOfOpcode (opcField v).toNat (argField v) (rndField v)).isSome ∧ reservedNonzero v = true) := by
  unfold decode
  cases instrOfOpcode (opcField v).toNat (argField v) (rndField v) <;> cases reservedNonzero v <;> simp

theorem decode_eq_ok_iff (v : Word) (i : Instr) :
    decode v = .ok i ↔
      instrOfOpcode (opcField v).toNat (argField v) (rndField v) = some i ∧ reservedNonzero v = false :=
  (decode_outcomes v).1 i

theorem decode_eq_illegalOpc_iff (v : Word) :
    decode v = .error .illegalOpc ↔ ¬ (opcField v).toNat ≤ 0x10 := by
  obtain ⟨-, hillegal, -⟩ := decode_outcomes v
  rw [hillegal, instrOfOpcode_isSome]

theorem decode_eq_reserved_iff (v : Word) :
    decode v = .error .reserved ↔ (opcField v).toNat ≤ 0x10 ∧ reservedNonzero v = true := by
  obtain ⟨-, -, hreserved⟩ := decode_outcomes v
  rw [hreserved, instrOfOpcode_isSome]

theorem decode_encode (i : Instr) : decode (encode i) = .ok i := by
  obtain ⟨hopc, harg, hrnd, -⟩ := encode_fields i
  rw [decode_eq_ok_iff, hopc, harg, hrnd]
  exact ⟨instrOfOpcode_operands i, reservedNonzero_encode i⟩

/-- A field that the opcode uses is the command's operand, one that it does not use is 0 in both words. -/
theorem encode_of_decode {v : Word} {i : Instr} (h : decode v = .ok i) : encode i = v := by
  obtain ⟨hmap, hres⟩ := (decode_eq_ok_iff v i).1 h
  obtain ⟨hopc, harg, hrnd⟩ := instrOfOpcode_eq_some hmap
  have hopc : opcField v = i.opcode := BitVec.eq_of_toNat_eq hopc
  obtain ⟨hrsv, harg0, hrnd0⟩ := hopc ▸ (reservedNonzero_eq_false v).1 hres
  obtain ⟨eopc, earg, ernd, ersv⟩ := encode_fields i
  refine word_ext_fields (eopc.trans hopc.symm) ?_ ?_ (ersv.trans hrsv.symm)
  · rw [earg, harg]
    split
    · rfl
    · exact (harg0 (Bool.eq_false_of_not_eq_true ‹_›)).symm
  · rw [ernd, hrnd]
    split
    · rfl
    · exact (hrnd0 (Bool.eq_false_of_not_eq_true ‹_›)).symm

theorem decode_eq_ok_iff_encode (v : Word) (i : Instr) : decode v = .ok i ↔ encode i = v :=
  ⟨encode_of_decode, fun h => h ▸ decode_encode i⟩

/-- Settles O2: the fields of an encoding are the command's, and a word is its four fields. -/
theorem decodeAndEncodeAreInverse : Obligations.DecodeAndEncodeAreInverse :=
  ⟨decode_encode, fun _ _ => encode_of_decode⟩

/-! ### What does not decode -/

/-- Non-zero reserved fields, on the number the word is (R94). -/
theorem reservedNonzero_eq_true (v : Word) :
    reservedNonzero v = true ↔
      v.toNat / 1048576 ≠ 0 ∨
      (v.toNat / 256 % 256 ≠ 0 ∧ v.toNat % 256 ≠ 0x0B ∧ v.toNat % 256 ≠ 0x0C) ∨
      (v.toNat / 65536 % 16 ≠ 0 ∧ v.toNat % 256 ≠ 0x04 ∧ v.toNat % 256 ≠ 0x08 ∧ v.toNat % 256 ≠ 0x0E) := by
  simp only [← opcField_toNat, ← argField_toNat, ← rndField_toNat, ← rsvField_toNat]
  simp [reservedNonzero, usesArg, usesRnd, BitVec.toNat_eq]

/-- Settles O4: the opcode map and the reserved fields, read on the number the word is. -/
theorem decoderRejectsByCause : Obligations.DecoderRejectsByCause := by
  intro v
  dsimp only
  rw [decode_eq_illegalOpc_iff, decode_eq_reserved_iff, reservedNonzero_eq_true, opcField_toNat]
  exact ⟨Nat.not_le, Iff.rfl⟩

/-! ### Words written out -/

/-- Settles O1: ten of the words are encodings, and the other two are rejected by the two causes. -/
theorem specWordsDecodeToTheirCommands : Obligations.SpecWordsDecodeToTheirCommands :=
  ⟨decode_encode .nop, decode_encode .loadBlock, decode_encode (.addRoundKey 10), decode_encode .subBytes,
    decode_encode (.round 1), decode_encode .encrypt, decode_encode (.xtime 0x57), decode_encode (.sbox 0x53),
    decode_encode (.tRound 9), decode_encode .clrErr, (decode_eq_illegalOpc_iff _).2 (by decide),
    (decode_eq_reserved_iff _).2 (by decide)⟩

end Sys2Proof

/-! PROOF. The match-and-mask table, and Check on words that decode and on words that do not (30_encoding.md R98,
R101; 60_exceptions.md R252). -/

namespace Sys2Proof

/-! ### The match-and-mask table -/

/-- The bits of a command word that its opcode fixes: all but the operand fields it uses (R101). -/
def opcodeMask (opc : Byte) : Word :=
  if usesArg opc then 0xFFFF00FF else if usesRnd opc then 0xFFF0FFFF else 0xFFFFFFFF

theorem opcodeMask_fields (opc : Byte) :
    opcField (opcodeMask opc) = BitVec.allOnes 8 ∧
      argField (opcodeMask opc) = (if usesArg opc then 0 else BitVec.allOnes 8) ∧
      rndField (opcodeMask opc) = (if usesRnd opc then 0 else BitVec.allOnes 4) ∧
      rsvField (opcodeMask opc) = BitVec.allOnes 12 := by
  decide +revert

theorem opcodeWord_fields (opc : Byte) :
    opcField (opc.setWidth 32) = opc ∧ argField (opc.setWidth 32) = 0 ∧ rndField (opc.setWidth 32) = 0 ∧
      rsvField (opc.setWidth 32) = 0 := by
  decide +revert

theorem and_fields (v w : Word) :
    opcField (v &&& w) = opcField v &&& opcField w ∧ argField (v &&& w) = argField v &&& argField w ∧
      rndField (v &&& w) = rndField v &&& rndField w ∧ rsvField (v &&& w) = rsvField v &&& rsvField w :=
  ⟨BitVec.extractLsb'_and, BitVec.extractLsb'_and, BitVec.extractLsb'_and, BitVec.extractLsb'_and⟩

theorem word_eq_iff_fields (v w : Word) :
    v = w ↔ opcField v = opcField w ∧ argField v = argField w ∧ rndField v = rndField w ∧
      rsvField v = rsvField w :=
  ⟨fun h => h ▸ ⟨rfl, rfl, rfl, rfl⟩, fun ⟨ho, ha, hn, hr⟩ => word_ext_fields ho ha hn hr⟩

/-- A field that a mask covers must be 0, one that it leaves out may be anything. -/
theorem and_ite_allOnes_eq_zero {w : Nat} (x : BitVec w) (uses : Bool) :
    x &&& (if uses then 0 else BitVec.allOnes w) = 0 ↔ (uses = false → x = 0) := by
  cases uses <;> simp

/-- A word matches a row on the row's opcode and on 0 in every field that the opcode does not use. -/
theorem and_opcodeMask_iff (v : Word) (opc : Byte) :
    v &&& opcodeMask opc = opc.setWidth 32 ↔ opcField v = opc ∧ reservedNonzero v = false := by
  obtain ⟨vo, va, vn, vr⟩ := and_fields v (opcodeMask opc)
  obtain ⟨mo, ma, mn, mr⟩ := opcodeMask_fields opc
  obtain ⟨wo, wa, wn, wr⟩ := opcodeWord_fields opc
  rw [word_eq_iff_fields, vo, va, vn, vr, mo, ma, mn, mr, wo, wa, wn, wr, reservedNonzero_eq_false,
    BitVec.and_allOnes, BitVec.and_allOnes, and_ite_allOnes_eq_zero, and_ite_allOnes_eq_zero]
  refine and_congr_right fun hopc => ?_
  rw [hopc, ← and_assoc, and_comm]

/-- The rows stand in the order of their opcodes (R101). -/
theorem opcodeTable_row (k : Fin 17) :
    opcodeTable[k].pattern = (BitVec.ofNat 8 k).setWidth 32 ∧
      opcodeTable[k].mask = opcodeMask (BitVec.ofNat 8 k) := by
  decide +revert

theorem row_of_mem {row : OpcodeRow} (h : row ∈ opcodeTable) : ∃ k : Fin 17, row = opcodeTable[k] := by
  obtain ⟨k, hk, rfl⟩ := List.getElem_of_mem h
  exact ⟨⟨k, hk⟩, rfl⟩

theorem row_matches_iff (v : Word) (k : Fin 17) :
    v &&& opcodeTable[k].mask = opcodeTable[k].pattern ↔
      opcField v = BitVec.ofNat 8 k ∧ reservedNonzero v = false := by
  obtain ⟨hpattern, hmask⟩ := opcodeTable_row k
  rw [hpattern, hmask, and_opcodeMask_iff]

theorem opcodeTable_mnemonic (i : Instr) :
    ∃ k : Fin 17, i.opcode = BitVec.ofNat 8 k ∧ i.mnemonic = opcodeTable[k].mnemonic := by
  cases i
  case nop => exact ⟨0, rfl, rfl⟩
  case loadBlock => exact ⟨1, rfl, rfl⟩
  case storeBlock => exact ⟨2, rfl, rfl⟩
  case expandKey => exact ⟨3, rfl, rfl⟩
  case addRoundKey => exact ⟨4, rfl, rfl⟩
  case subBytes => exact ⟨5, rfl, rfl⟩
  case shiftRows => exact ⟨6, rfl, rfl⟩
  case mixColumns => exact ⟨7, rfl, rfl⟩
  case round => exact ⟨8, rfl, rfl⟩
  case finalRound => exact ⟨9, rfl, rfl⟩
  case encrypt => exact ⟨10, rfl, rfl⟩
  case xtime => exact ⟨11, rfl, rfl⟩
  case sbox => exact ⟨12, rfl, rfl⟩
  case genTables => exact ⟨13, rfl, rfl⟩
  case tRound => exact ⟨14, rfl, rfl⟩
  case encryptT => exact ⟨15, rfl, rfl⟩
  case clrErr => exact ⟨16, rfl, rfl⟩

theorem opcode_ofNat_inj {k k' : Fin 17} (h : (BitVec.ofNat 8 k : Byte) = BitVec.ofNat 8 k') : k = k' := by
  revert k k'; decide

theorem opcodeTable_mnemonic_inj {k k' : Fin 17} (h : opcodeTable[k].mnemonic = opcodeTable[k'].mnemonic) :
    k = k' := by
  revert k k'; decide

/-- A command has the mnemonic of a row exactly where it has the row's opcode (R95). -/
theorem mnemonic_eq_iff (i : Instr) (k : Fin 17) :
    i.mnemonic = opcodeTable[k].mnemonic ↔ i.opcode = BitVec.ofNat 8 k := by
  obtain ⟨k', hopc, hname⟩ := opcodeTable_mnemonic i
  rw [hopc, hname]
  exact ⟨fun h => opcodeTable_mnemonic_inj h ▸ rfl, fun h => opcode_ofNat_inj h ▸ rfl⟩

theorem opcField_of_decode {v : Word} {i : Instr} (h : decode v = .ok i) :
    opcField v = i.opcode ∧ reservedNonzero v = false := by
  obtain ⟨hopc, -⟩ := encode_fields i
  rw [← encode_of_decode h]
  exact ⟨hopc, reservedNonzero_encode i⟩

theorem decodes_iff (v : Word) (k : Fin 17) :
    (∃ i, decode v = .ok i ∧ i.opcode = BitVec.ofNat 8 k) ↔
      opcField v = BitVec.ofNat 8 k ∧ reservedNonzero v = false := by
  constructor
  · rintro ⟨i, hd, hopc⟩
    exact hopc ▸ opcField_of_decode hd
  · rintro ⟨hopc, hres⟩
    have hle : (opcField v).toNat ≤ 0x10 := by
      rw [hopc, BitVec.toNat_ofNat]
      omega
    obtain ⟨i, hi⟩ := Option.isSome_iff_exists.1 ((instrOfOpcode_isSome _ (argField v) (rndField v)).2 hle)
    have hd := (decode_eq_ok_iff v i).2 ⟨hi, hres⟩
    exact ⟨i, hd, (opcField_of_decode hd).1 ▸ hopc⟩

end Sys2Proof

namespace Sys2Proof.Machine

/-! ### Check on a word that decodes -/

theorem needsAccel_iff_opcode (i : Instr) : i.opcode.toNat ∈ [0x0D, 0x0E, 0x0F] ↔ needsAccel i = true := by
  cases i <;> simp [Instr.opcode, needsAccel]

theorem needsTables_iff_opcode (i : Instr) : i.opcode.toNat ∈ [0x0E, 0x0F] ↔ needsTables i = true := by
  cases i <;> simp [Instr.opcode, needsTables]

theorem needsSched_iff_opcode (i : Instr) :
    i.opcode.toNat ∈ [0x04, 0x08, 0x09, 0x0E] ↔ needsSched i = true := by
  cases i <;> simp [Instr.opcode, needsSched]

theorem opcode_le (i : Instr) : ¬ i.opcode.toNat > 0x10 := by
  cases i <;> simp [Instr.opcode]

/-- The two range conditions of R98, on the opcode and the round number. -/
theorem badRound_iff (i : Instr) :
    (i.opcode.toNat = 0x04 ∧ i.rndOperand.toNat > 10) ∨
      (i.opcode.toNat ∈ [0x08, 0x0E] ∧ (i.rndOperand.toNat = 0 ∨ i.rndOperand.toNat > 9)) ↔ ¬ i.wf = true := by
  cases i with
  | addRoundKey n | round n | tRound n => revert n; decide
  | _ => simp [Instr.opcode, Instr.wf]

theorem unusedArg_zero (i : Instr) : ¬ (i.argOperand ≠ 0 ∧ i.opcode.toNat ∉ [0x0B, 0x0C]) := by
  cases i with
  | xtime _ | sbox _ => simp [Instr.opcode]
  | _ => exact fun h => h.1 rfl

theorem unusedRnd_zero (i : Instr) : ¬ (i.rndOperand.toNat ≠ 0 ∧ i.opcode.toNat ∉ [0x04, 0x08, 0x0E]) := by
  cases i with
  | addRoundKey _ | round _ | tRound _ => simp [Instr.opcode]
  | _ => exact fun h => h.1 rfl

/-- On the fields of an encoding Check's decoding conditions all pass, and the others are the command's own. -/
theorem check_encode (i : Instr) (s : State) : check (encode i) s = checkInstr i s := by
  obtain ⟨hopc, harg, hrnd, hrsv⟩ := encode_fields i
  unfold check checkInstr; dsimp only
  rw [hopc, harg, hrnd, hrsv, if_neg (opcode_le i), if_neg (not_not.2 rfl), if_neg (unusedArg_zero i),
    if_neg (unusedRnd_zero i), ← ite_or]
  simp only [badRound_iff, needsAccel_iff_opcode, needsTables_iff_opcode, needsSched_iff_opcode]

theorem check_of_decode {v : Word} {i : Instr} (s : State) (h : decode v = .ok i) :
    check v s = checkInstr i s :=
  encode_of_decode h ▸ check_encode i s

/-- Settles O3: a row is met by an opcode with nothing in the fields it does not use, which is when a command of
that opcode, and so of that mnemonic, is decoded. -/
theorem matchAndMaskSelectTheCommand : Obligations.MatchAndMaskSelectTheCommand := by
  refine ⟨fun v row hrow => ?selects, fun v row hrow row' hrow' hm hm' => ?unique,
    fun v i s h => check_of_decode s h⟩
  case selects =>
    obtain ⟨k, rfl⟩ := row_of_mem hrow
    simp only [mnemonic_eq_iff, decodes_iff, row_matches_iff]
  case unique =>
    obtain ⟨k, rfl⟩ := row_of_mem hrow
    obtain ⟨k', rfl⟩ := row_of_mem hrow'
    obtain ⟨hk, -⟩ := (row_matches_iff v k).1 hm
    obtain ⟨hk', -⟩ := (row_matches_iff v k').1 hm'
    rw [opcode_ofNat_inj (hk.symm.trans hk')]

/-! ### Check on a word that does not decode -/

/-- The accelerator is asked for before the reserved fields (R98, R254). -/
theorem check_reserved {v : Word} (s : State) (hle : v.toNat % 256 ≤ 0x10) (hres : reservedNonzero v = true) :
    check v s = .unsupported ∨ check v s = .reserved := by
  rw [reservedNonzero_eq_true] at hres
  rw [check_eq_firstFailing, checkConditions, firstFailing, if_neg (by simpa using Nat.lt_succ_of_le hle),
    firstFailing]
  split
  · exact .inl rfl
  · rw [firstFailing, if_pos (decide_eq_true hres)]
    exact .inr rfl

theorem check_of_undecoded {v : Word} {e : DecodeError} (s : State) (h : decode v = .error e) :
    check v s ≠ .none := by
  cases e with
  | illegalOpc =>
    rw [decode_eq_illegalOpc_iff, opcField_toNat, Nat.not_le] at h
    rw [check_illegalOpc s h]
    exact nofun
  | reserved =>
    obtain ⟨hle, hres⟩ := opcField_toNat v ▸ (decode_eq_reserved_iff v).1 h
    rcases check_reserved s hle hres with hc | hc <;> rw [hc] <;> exact nofun

/-- An accepted word decodes, to a command that passes its own checks. -/
theorem check_eq_none_iff (v : Word) (s : State) :
    check v s = .none ↔ ∃ i, decode v = .ok i ∧ checkInstr i s = .none := by
  constructor
  · intro h
    cases hd : decode v with
    | ok i => exact ⟨i, rfl, check_of_decode s hd ▸ h⟩
    | error e => exact absurd h (check_of_undecoded s hd)
  · rintro ⟨i, hd, hc⟩
    rw [check_of_decode s hd, hc]

/-- Settles O5: an accepted word decodes, so it is its command's encoding, and the rest is what the command's own
checks ask. -/
theorem acceptedWordsAreCheckedCommands : Obligations.AcceptedWordsAreCheckedCommands := by
  intro v s
  rw [check_eq_none_iff]
  simp only [decode_eq_ok_iff_encode, checkInstr_none_iff, and_left_comm]

/-! ### The errors of each opcode -/

/-- R252's table, read by the error. -/
theorem mem_possibleErrors_iff (op : Nat) (e : ErrCode) :
    e ∈ possibleErrors op ↔
      (e = .illegalOpc ∧ 0x11 ≤ op) ∨ (e = .unsupported ∧ 0x0D ≤ op ∧ op ≤ 0x0F) ∨
      (e = .reserved ∧ op ≤ 0x10) ∨ (e = .badRound ∧ (op = 0x04 ∨ op = 0x08 ∨ op = 0x0E)) ∨
      (e = .noTables ∧ (op = 0x0E ∨ op = 0x0F)) ∨
      (e = .noSched ∧ (op = 0x04 ∨ op = 0x08 ∨ op = 0x09 ∨ op = 0x0E)) := by
  unfold possibleErrors
  split
  case h_7 =>
    obtain ⟨h4, h8, h9, hD, hE, hF⟩ :
        op ≠ 0x04 ∧ op ≠ 0x08 ∧ op ≠ 0x09 ∧ op ≠ 0x0D ∧ op ≠ 0x0E ∧ op ≠ 0x0F := ⟨‹_›, ‹_›, ‹_›, ‹_›, ‹_›, ‹_›⟩
    split <;> cases e <;> simp <;> omega
  all_goals cases e <;> simp

/-- Check answers NONE or the code of a condition that holds. -/
theorem firstFailing_mem (cs : List (ErrCode × Bool)) :
    firstFailing cs = .none ∨ (firstFailing cs, true) ∈ cs := by
  induction cs with
  | nil => exact .inl rfl
  | cons c cs ih =>
    obtain ⟨code, b⟩ := c
    cases b with
    | true => exact .inr (List.mem_cons_self ..)
    | false => exact ih.imp_right (List.mem_cons_of_mem _)

theorem check_mem_possibleErrors (v : Word) (s : State) :
    check v s = .none ∨ check v s ∈ possibleErrors (v.toNat % 256) := by
  rcases Nat.lt_or_ge 0x10 (v.toNat % 256) with hop | hop
  · exact .inr ((mem_possibleErrors_iff _ _).2 (.inl ⟨check_illegalOpc s hop, hop⟩))
  · rw [check_eq_firstFailing]
    refine (firstFailing_mem _).imp_right fun h => (mem_possibleErrors_iff _ _).2 ?_
    simp only [checkConditions, List.mem_cons, Prod.mk.injEq, List.not_mem_nil, or_false, true_eq_decide_iff] at h
    rcases h with ⟨-, h⟩ | ⟨he, h⟩ | ⟨he, -⟩ | ⟨he, h⟩ | ⟨he, h, -⟩ | ⟨he, h, -⟩
    · omega
    · exact .inr (.inl ⟨he, h.1, h.2.1⟩)
    · exact .inr (.inr (.inl ⟨he, hop⟩))
    · exact .inr (.inr (.inr (.inl ⟨he, h.imp And.left fun h' => h'.1⟩)))
    · exact .inr (.inr (.inr (.inr (.inl ⟨he, h⟩))))
    · exact .inr (.inr (.inr (.inr (.inr ⟨he, h⟩))))

/-- The opcode in the low byte and a field above it. -/
theorem word_with_opcode {op : Nat} (k : Nat) (hop : op < 256) :
    (BitVec.ofNat 32 (op + 256 * k)).toNat % 256 = op := by
  rw [BitVec.toNat_ofNat]
  omega

/-- With 1 in RSV, no opcode decodes, whatever the state. -/
theorem check_with_rsv {op : Nat} (hop : op ≤ 0x10) :
    check (BitVec.ofNat 32 (op + 256 * 0x1000)) State.reset = .reserved := by
  decide +revert

/-- Settles O7: Check's answer is the code of a condition that holds, and each entry of the table is raised by a
word of its opcode, right after reset, without the accelerator, or with tables but no schedule. -/
theorem eachOpcodeRaisesItsListedErrors : Obligations.EachOpcodeRaisesItsListedErrors := by
  refine ⟨check_mem_possibleErrors, fun op hop e he => ?_⟩
  rcases (mem_possibleErrors_iff op e).1 he with
    ⟨rfl, h⟩ | ⟨rfl, h⟩ | ⟨rfl, h⟩ | ⟨rfl, h⟩ | ⟨rfl, h⟩ | ⟨rfl, h⟩
  · have hword := word_with_opcode 0 hop
    exact ⟨_, State.reset, hword, check_illegalOpc _ (hword.symm ▸ h)⟩
  · have hword := word_with_opcode 0 hop
    refine ⟨_, { State.reset with capTables := false }, hword, check_unsupported rfl ?_⟩
    simpa only [hword, List.mem_cons, List.not_mem_nil, or_false, accelOpcode_iff] using h
  · exact ⟨_, State.reset, word_with_opcode _ hop, check_with_rsv h⟩
  · refine ⟨_, State.reset, word_with_opcode 0xF00 hop, ?_⟩
    rcases h with rfl | rfl | rfl <;> decide
  · rcases h with rfl | rfl
    · exact ⟨0x0001000E, State.reset, by decide⟩
    · exact ⟨0x0000000F, State.reset, by decide⟩
  · rcases h with rfl | rfl | rfl | rfl
    · exact ⟨0x00000004, State.reset, by decide⟩
    · exact ⟨0x00010008, State.reset, by decide⟩
    · exact ⟨0x00000009, State.reset, by decide⟩
    · exact ⟨0x0001000E, { State.reset with tablesValid := true }, by decide⟩

end Sys2Proof.Machine

/-! PROOF. A command from its completion step on: the step is its `exec`, every step answers a next state, and what
a command changes in the register window (30_encoding.md R97; 10_state.md R20). -/

namespace Sys2Proof.Machine

/-! ### The completion step -/

theorem complete_total (s : State) : ∃ t, complete s = .next t := by
  rcases complete_cases s with ⟨-, h⟩ | ⟨_, _, _, -, -, -, h⟩ | ⟨_, _, -, -, h⟩ <;> exact ⟨_, h⟩

/-- No step faults and none is refused: the four atomic steps all answer (R250). -/
theorem step_total (s : State) : ∃ t, step s = .next t := by
  cases ha : s.actions with
  | nil =>
    rw [step_of_none ha]
    exact complete_total s
  | cons a rest =>
    rw [step_of_action ha]
    cases a with
    | complete => exact complete_total _
    | hostRead off n => exact ⟨_, rfl⟩
    | hostWrite off n v => exact ⟨_, rfl⟩
    | reset => exact ⟨_, rfl⟩

/-- Settles O41: an action to come is a host access, a completion or a reset, and with none to come the step is
the completion. -/
theorem everyStepHasANextState : Obligations.EveryStepHasANextState :=
  step_total

theorem step_of_completes {s t : State} {i : Instr} (h : s.completes i) (he : exec i s.popAction = .next t) :
    step s = .next t.finishCommand := by
  obtain ⟨hn, w, hp, hd⟩ := h
  rw [step_of_completesNext hn]
  exact complete_of_command (s := s.popAction) hp hd he

/-- Settles O22: every command answers a next state, which the completion step finishes. -/
theorem stepExecutesThePendingCommand : Obligations.StepExecutesThePendingCommand := by
  intro s i h
  obtain ⟨t, ht⟩ := exec_total i s.popAction
  exact ⟨t, ht, step_of_completes h ht⟩

theorem tableWord_toNat (v : Word) : tableWord 32 v.toNat = v := by
  rw [tableWord, Nat.mod_eq_of_lt v.isLt, BitVec.ofNat_toNat, BitVec.setWidth_eq]

/-- Settles O23: the placed word is pending with its completion next, and it decodes to the command. -/
theorem fetchWordRunsItsCommand : Obligations.FetchWordRunsItsCommand := by
  intro s i
  obtain ⟨t, ht⟩ := exec_total i { s with cmd := encode i, pending := some (encode i), done := false }
  refine ⟨t, ht, ?_⟩
  rw [State.withFetchWord, tableWord_toNat]
  exact step_of_completes ⟨.inr ⟨_, rfl⟩, _, rfl, decode_encode i⟩ ht

/-- Settles O17: the effect of CLR_ERR, finished, and the reset state. -/
theorem clrErrAndResetClearTheReport : Obligations.ClrErrAndResetClearTheReport := by
  rintro s (hclr | hreset)
  · exact ⟨_, step_of_completes (t := s.popAction.clearErrors) hclr rfl, rfl, rfl, rfl⟩
  · exact ⟨_, step_of_resetsNext hreset, rfl, rfl, rfl⟩

/-! ### Single commands -/

/-- Settles O24: NOP's meaning, and its one encoding. -/
theorem nopLeavesTheStateAlone : Obligations.NopLeavesTheStateAlone :=
  ⟨fun _ => rfl, fun v => (decode_eq_ok_iff_encode v .nop).trans eq_comm⟩

/-- Settles O25: the meanings of the two commands. -/
theorem loadAndStoreBlockCopy : Obligations.LoadAndStoreBlockCopy :=
  fun _ => ⟨rfl, rfl⟩

theorem exec_fail {i : Instr} {s : State} (h : checkInstr i s ≠ .none) :
    exec i s = .next (s.rejectCommand (checkInstr i s)) := by
  obtain ⟨e, he, -⟩ := exec_checked i s
  exact he.trans (performChecked_fail h)

/-- Settles O40: the rejection, by whether an error is already recorded. -/
theorem failingFormsAreTurnedAway : Obligations.FailingFormsAreTurnedAway := by
  intro s i h
  rw [exec_fail h]
  split
  · rw [State.rejectCommand_first _ s ‹_›]
  · rw [State.rejectCommand_later _ s ‹_›]

/-! ### The frame of a command on the register window -/

/-- Of STATE, DOUT and RESULT a command leaves alone what its row does not give it. -/
theorem exec_keeps_blocks {i : Instr} {s t : State} (h : exec i s = .next t) :
    (∀ c, mayWrite i (.state c) = false → t.state = s.state) ∧
      (∀ c, mayWrite i (.dout c) = false → t.dout = s.dout) ∧
      (mayWrite i .result = false → t.result = s.result) := by
  rcases exec_effects h with ⟨-, rfl⟩ | ⟨hc, -⟩
  · simp
  · have hpass {e : State} : performChecked i s e = .next e := performChecked_pass hc
    cases i with
    | addRoundKey _ | round _ | finalRound | genTables | tRound _ | encryptT =>
      obtain rfl := Host.Outcome.next.inj (hpass.symm.trans h)
      simp [mayWrite]
    | _ =>
      obtain rfl := Host.Outcome.next.inj h
      simp [mayWrite, State.clearErrors]

/-- No command writes KEY or DIN (R22, R23). -/
theorem exec_keeps_inputs {i : Instr} {s t : State} (h : exec i s = .next t) : t.key = s.key ∧ t.din = s.din := by
  rcases exec_effects h with ⟨-, rfl⟩ | ⟨-, hkey, hdin, -⟩
  · simp
  · exact ⟨hkey, hdin⟩

/-- Three commands write the schedule (R35). -/
theorem exec_keeps_schedule {i : Instr} {s t : State} (h : exec i s = .next t)
    (hi : ¬ (i = .expandKey ∨ i = .encrypt ∨ i = .encryptT)) :
    t.schedValid = s.schedValid ∧ t.rk = s.rk := by
  rcases exec_effects h with ⟨-, rfl⟩ | ⟨-, -, -, -, -, ⟨hi', -⟩ | ⟨-, hkept⟩, -⟩
  · simp
  · exact absurd hi' hi
  · exact hkept

/-- One command writes the tables (R36). -/
theorem exec_keeps_tables {i : Instr} {s t : State} (h : exec i s = .next t) (hi : i ≠ .genTables) :
    t.tablesValid = s.tablesValid ∧ t.t0 = s.t0 ∧ t.t1 = s.t1 ∧ t.t2 = s.t2 ∧ t.t3 = s.t3 := by
  rcases exec_effects h with ⟨-, rfl⟩ | ⟨-, -, -, -, -, -, ⟨hi', -⟩ | ⟨-, hkept⟩, -⟩
  · simp
  · exact absurd hi' hi
  · exact hkept

theorem State.tableEntry_congr {s t : State} (h0 : t.t0 = s.t0) (h1 : t.t1 = s.t1) (h2 : t.t2 = s.t2)
    (h3 : t.t3 = s.t3) : t.tableEntry = s.tableEntry := by
  funext k j
  simp only [State.tableEntry, h0, h1, h2, h3]

theorem exec_keeps_target {i : Instr} {s t : State} {x : Target} (h : exec i s = .next t) (hx : x ≠ .status)
    (hw : mayWrite i x = false) : t.readTarget x = s.readTarget x := by
  obtain ⟨hcmd, -, hcap, -⟩ := exec_keeps_control h
  obtain ⟨hkey, hdin⟩ := exec_keeps_inputs h
  obtain ⟨hstate, hdout, hresult⟩ := exec_keeps_blocks h
  cases x with
  | status => exact absurd rfl hx
  | cmd => exact hcmd
  | result => exact congrArg (fun w => zext32 (byte w 0)) (hresult hw)
  | key j => exact congrArg (·[j]) hkey
  | din c => exact congrArg (·[c]) hdin
  | dout c => exact congrArg (·[c]) (hdout c hw)
  | state c => exact congrArg (·[c]) (hstate c hw)
  | id | sbox _ | unmapped => rfl
  | rk k =>
    have hi : ¬ (i = .expandKey ∨ i = .encrypt ∨ i = .encryptT) := by
      rintro (rfl | rfl | rfl) <;> cases hw
    obtain ⟨hvalid, hrk⟩ := exec_keeps_schedule h hi
    simp only [State.readTarget, hvalid, hrk]
  | table k j =>
    have hi : i ≠ .genTables := by
      rintro rfl
      cases hw
    obtain ⟨hvalid, h0, h1, h2, h3⟩ := exec_keeps_tables h hi
    have hready : t.tablesReady = s.tablesReady := by rw [State.tablesReady, hcap, hvalid, State.tablesReady]
    simp only [State.readTarget, hready, State.tableEntry_congr h0 h1 h2 h3]

/-- Settles O43: the offset names the same target before and after, and the command leaves that target alone. -/
theorem commandsChangeOnlyTheirWindowWords : Obligations.CommandsChangeOnlyTheirWindowWords := by
  intro i s t off h hx hw
  obtain ⟨-, -, hcap, -⟩ := exec_keeps_control h
  rw [State.readWindow, hcap]
  exact exec_keeps_target h hx hw

end Sys2Proof.Machine

/-! PROOF. All a host access can do, and the invariant of sound states: reset meets it and every step keeps it
(10_state.md R35-R41; 30_encoding.md R97). -/

namespace Sys2Proof.Machine

/-! ### Host accesses -/

/-- An aligned offset among four words from `base` on is one of the four. -/
theorem exists_word_index {o base : Nat} (hb : base % 4 = 0) (h4 : o % 4 = 0) (hl : base ≤ o)
    (hu : o < base + 16) : ∃ j : Fin 4, o = base + 4 * j.val :=
  ⟨⟨(o - base) / 4, by omega⟩, by dsimp only; omega⟩

/-- All a legal write can do: an accepted write to CMD, KEY or DIN while nothing is pending, or a recorded
error. -/
theorem State.legalWrite_cases {off : Offset} (v : Word) (s : State) (h4 : off.toNat % 4 = 0) :
    (s.pending = none ∧ s.writeTarget v (windowTarget s.capTables off) = s.issue v) ∨
    (∃ j : Fin 4, off.toNat = 0x0010 + 4 * j.val ∧ s.pending = none ∧
      s.writeTarget v (windowTarget s.capTables off) = s.writeKey j v) ∨
    (∃ c : Fin 4, off.toNat = 0x0020 + 4 * c.val ∧ s.pending = none ∧
      s.writeTarget v (windowTarget s.capTables off) = s.writeDin c v) ∨
    (∃ code, code ≠ .none ∧ s.writeTarget v (windowTarget s.capTables off) = s.recordError code) := by
  by_cases hw : off.toNat = 0x0000 ∨ (0x0010 ≤ off.toNat ∧ off.toNat < 0x0030)
  · cases hb : s.busy with
    | true => exact .inr (.inr (.inr ⟨.busy, nofun, State.writeTarget_busy v hb (windowTarget_writable _ _ h4 hw)⟩))
    | false =>
      have hp := s.busy_eq_false.1 hb
      rcases hw with h | ⟨hl, hu⟩
      · rw [windowTarget_cmd _ _ (by omega), State.writeTarget_cmd_idle v hb]
        exact .inl ⟨hp, rfl⟩
      · rcases Nat.lt_or_ge off.toNat 0x0020 with h | h
        · obtain ⟨j, hj⟩ := exists_word_index (by decide) h4 hl h
          rw [windowTarget_key _ _ j hj, State.writeTarget_key_idle v j hb]
          exact .inr (.inl ⟨j, hj, hp, rfl⟩)
        · obtain ⟨c, hc⟩ := exists_word_index (by decide) h4 h hu
          rw [windowTarget_din _ _ c hc, State.writeTarget_din_idle v c hb]
          exact .inr (.inr (.inl ⟨c, hc, hp, rfl⟩))
  · obtain ⟨hcmd, hkey, hdin⟩ := windowTarget_readOnly s.capTables off (by omega) h4 (by omega)
    exact .inr (.inr (.inr ⟨.badAccess, nofun, State.writeTarget_readOnly v s hcmd hkey hdin⟩))

/-- All a host write can do: the legal ones as above, and an illegal one records its error. -/
theorem State.hostWrite_cases (off : Offset) (n : Nat) (v : Word) (s : State) :
    (s.pending = none ∧ s.hostWrite off n v = s.issue v) ∨
    (∃ j : Fin 4, n = 4 ∧ off.toNat = 0x0010 + 4 * j.val ∧ s.pending = none ∧
      s.hostWrite off n v = s.writeKey j v) ∨
    (∃ c : Fin 4, n = 4 ∧ off.toNat = 0x0020 + 4 * c.val ∧ s.pending = none ∧
      s.hostWrite off n v = s.writeDin c v) ∨
    (∃ code, code ≠ .none ∧ s.hostWrite off n v = s.recordError code) := by
  by_cases hl : n = 4 ∧ off.toNat % 4 = 0
  · obtain ⟨rfl, h4⟩ := hl
    rw [State.hostWrite, if_pos ((legalAccess_iff off 4).2 ⟨rfl, h4⟩)]
    rcases s.legalWrite_cases v h4 with h | ⟨j, h⟩ | ⟨c, h⟩ | h
    · exact .inl h
    · exact .inr (.inl ⟨j, rfl, h⟩)
    · exact .inr (.inr (.inl ⟨c, rfl, h⟩))
    · exact .inr (.inr (.inr h))
  · exact .inr (.inr (.inr ⟨.badAccess, nofun, State.hostWrite_illegal v s (by omega)⟩))

/-- All a host read can do: the value it adds aside, nothing, or a recorded error. -/
theorem State.hostRead_cases (off : Offset) (n : Nat) (s : State) :
    s.hostRead off n = { s with returned := s.readWindow off :: s.returned } ∨
    s.hostRead off n = { s.recordError .badAccess with returned := 0 :: s.returned } :=
  ite_eq_or_eq ..

/-! ### What keeps the invariant -/

section Invariant
variable {s : State} (h : s.Inv)
include h

theorem State.Inv.withActions (as : List Action) : ({ s with actions := as } : State).Inv :=
  { h with }

theorem State.Inv.withReturned (r : List Word) : ({ s with returned := r } : State).Inv :=
  { h with }

theorem State.Inv.recordError {code : ErrCode} (hc : code ≠ .none) : (s.recordError code).Inv := by
  by_cases he : s.err = .none
  · rw [State.recordError_first code s he]
    exact { h with overflow_after_error := fun _ => hc }
  · rw [State.recordError_later code s he]
    exact { h with overflow_after_error := fun _ => he }

theorem State.Inv.hostRead (off : Offset) (n : Nat) : (s.hostRead off n).Inv := by
  rcases s.hostRead_cases off n with hr | hr <;> rw [hr]
  · exact h.withReturned _
  · exact (h.recordError (code := .badAccess) nofun).withReturned _

/-- An accepted word stands in CMD and has passed Check, which asks for nothing that the issue changes; a
rejected one is not pending. -/
theorem State.Inv.issue (v : Word) (hp : s.pending = none) : (s.issue v).Inv := by
  by_cases hc : check v s = .none
  · rw [State.issue_accepted hc]
    exact { h with
      pending_in_cmd := fun _ hw => Option.some.inj hw
      pending_accepted := fun w hw => Option.some.inj hw ▸ hc
      pending_not_done := fun _ => rfl }
  · rw [State.issue_rejected hc]
    have hstored : ({ s with cmd := v, done := true } : State).Inv := { h with
      pending_in_cmd := fun _ hw => absurd (hp.symm.trans hw) nofun
      pending_accepted := fun _ hw => absurd (hp.symm.trans hw) nofun
      pending_not_done := fun hw => absurd hp hw }
    exact hstored.recordError hc

/-- KEY is written only while nothing is pending, and the write makes the schedule stale. -/
theorem State.Inv.writeKey (j : Fin 4) (v : Word) (hp : s.pending = none) : (s.writeKey j v).Inv :=
  { h with
    pending_accepted := fun _ hw => absurd (hp.symm.trans hw) nofun
    schedule_of_key := nofun }

theorem State.Inv.writeDin (c : Fin 4) (v : Word) : (s.writeDin c v).Inv :=
  { h with }

theorem State.Inv.hostWrite (off : Offset) (n : Nat) (v : Word) : (s.hostWrite off n v).Inv := by
  rcases s.hostWrite_cases off n v with ⟨hp, hw⟩ | ⟨j, -, -, hp, hw⟩ | ⟨c, -, -, -, hw⟩ | ⟨code, hc, hw⟩ <;> rw [hw]
  · exact h.issue v hp
  · exact h.writeKey j v hp
  · exact h.writeDin c v
  · exact h.recordError hc

/-- A pending word of a sound state decodes, to a command that passes its own checks. -/
theorem State.Inv.pending_decodes {w : Word} (hp : s.pending = some w) :
    ∃ i, decode w = .ok i ∧ checkInstr i s = .none :=
  (check_eq_none_iff w s).1 (h.pending_accepted w hp)

/-- A command that passes its checks, finished: RK and the tables are as before or as the command that writes
them leaves them. -/
theorem State.Inv.finishCommand {i : Instr} {t : State} (hc : checkInstr i s = .none) (he : exec i s = .next t) :
    t.finishCommand.Inv := by
  obtain ⟨-, -, hcap, -⟩ := exec_keeps_control he
  rcases exec_effects he with ⟨hfail, -⟩ | ⟨-, hkey, -, -, hreport, hsched, htables, hresult⟩
  · exact absurd hc hfail
  refine ⟨nofun, nofun, fun hw => absurd rfl hw, ?schedule, ?tables, ?present, ?result, ?overflow⟩
  case schedule =>
    intro hv
    rw [State.finishCommand_rk, State.finishCommand_key, hkey]
    rcases hsched with ⟨-, -, hrk⟩ | ⟨-, hvalid, hrk⟩
    · exact hrk
    · exact hrk.trans (h.schedule_of_key (hvalid.symm.trans hv))
  case tables =>
    intro hv
    rcases htables with ⟨-, -, hgen⟩ | ⟨-, hvalid, h0, h1, h2, h3⟩
    · exact hgen
    · obtain ⟨g0, g1, g2, g3⟩ := h.tables_generated (hvalid.symm.trans hv)
      exact ⟨h0.trans g0, h1.trans g1, h2.trans g2, h3.trans g3⟩
  case present =>
    intro hv
    rw [State.finishCommand_capTables, hcap]
    rcases htables with ⟨rfl, -⟩ | ⟨-, hvalid, -⟩
    · exact ((checkInstr_none_iff .genTables s).1 hc).1 rfl
    · exact h.tables_present (hvalid.symm.trans hv)
  case result =>
    rw [State.resultRead, State.finishCommand_result]
    rcases hresult with hr | ⟨b, hb⟩
    · rw [hr]
      exact h.result_byte
    · rw [hb, byte_zext32_zero]
  case overflow =>
    rw [State.finishCommand_errOvf, State.finishCommand_err]
    rcases hreport with ⟨-, -, ho⟩ | ⟨-, herr, ho⟩ <;> rw [ho]
    · exact nofun
    · exact herr ▸ h.overflow_after_error

theorem State.Inv.complete {t : State} (hs : complete s = .next t) : t.Inv := by
  cases hp : s.pending with
  | none => exact Host.Outcome.next.inj ((complete_idle hp).symm.trans hs) ▸ h
  | some w =>
    obtain ⟨i, hd, hc⟩ := h.pending_decodes hp
    obtain ⟨u, hu⟩ := exec_total i s
    exact Host.Outcome.next.inj ((complete_of_command hp hd hu).symm.trans hs) ▸ h.finishCommand hc hu

end Invariant

/-- With nothing pending, nothing valid and no overflow the invariant asks only for RESULT's upper bits. -/
theorem State.Inv.of_cleared {s : State} (hp : s.pending = none) (hs : s.schedValid = false)
    (ht : s.tablesValid = false) (ho : s.errOvf = false) (hr : s.resultRead = s.result) : s.Inv where
  pending_in_cmd _ hw := absurd (hp.symm.trans hw) nofun
  pending_accepted _ hw := absurd (hp.symm.trans hw) nofun
  pending_not_done hw := absurd hp hw
  schedule_of_key hv := absurd (hs.symm.trans hv) nofun
  tables_generated hv := absurd (ht.symm.trans hv) nofun
  tables_present hv := absurd (ht.symm.trans hv) nofun
  result_byte := hr
  overflow_after_error hv := absurd (ho.symm.trans hv) nofun

/-- Settles O44: reset clears everything the invariant is about. -/
theorem resetMeetsTheInvariant : Obligations.ResetMeetsTheInvariant :=
  .of_cleared rfl rfl rfl rfl rfl

/-- Settles O45: a step is a host read, a host write, a reset or a completion, and each of them keeps the
invariant. -/
theorem everyStepKeepsTheInvariant : Obligations.EveryStepKeepsTheInvariant := by
  intro s t h hs
  rcases step_cases hs with ⟨off, n, rest, -, rfl⟩ | ⟨off, n, v, rest, -, rfl⟩ | ⟨-, rfl⟩ | ⟨-, hc⟩
  · exact (h.withActions rest).hostRead off n
  · exact (h.withActions rest).hostWrite off n v
  · exact .of_cleared rfl rfl rfl rfl rfl
  · exact (h.withActions s.actions.tail).complete hc

/-- Settles O42: the pending word of a sound state is a command that passes its checks, and of these only CLR_ERR
touches the report. -/
theorem acceptedCommandsCompleteWithoutError : Obligations.AcceptedCommandsCompleteWithoutError := by
  intro s h hn hb
  obtain ⟨w, hp⟩ := s.busy_eq_true.1 hb
  obtain ⟨i, hd, hc⟩ := h.pending_decodes hp
  have hi : s.completes i := ⟨hn, w, hp, hd⟩
  obtain ⟨t, ht⟩ := exec_total i s.popAction
  refine ⟨i, t.finishCommand, hi, hc, step_of_completes hi ht, ?_⟩
  rcases exec_effects ht with ⟨hfail, -⟩ | ⟨-, -, -, -, hreport, -⟩
  · exact absurd hc hfail
  · exact hreport.symm

end Sys2Proof.Machine

/-! PROOF. Who writes KEY, DIN and the two valid flags: an accepted host write, reset, or the completion of a
command, and nothing else (10_state.md section 6). -/

namespace Sys2Proof.Machine

/-- The inputs, CAP_TABLES and the two valid flags are as before. -/
structure KeepsInputs (s t : State) : Prop where
  key : t.key = s.key
  din : t.din = s.din
  capTables : t.capTables = s.capTables
  schedValid : t.schedValid = s.schedValid
  tablesValid : t.tablesValid = s.tablesValid

theorem KeepsInputs.refl (s : State) : KeepsInputs s s := ⟨rfl, rfl, rfl, rfl, rfl⟩

theorem State.recordError_keepsInputs (code : ErrCode) (s : State) : KeepsInputs s (s.recordError code) := by
  constructor <;> simp

theorem State.rejectCommand_keepsInputs (code : ErrCode) (s : State) : KeepsInputs s (s.rejectCommand code) := by
  constructor <;> simp

theorem State.hostRead_keepsInputs (off : Offset) (n : Nat) (s : State) : KeepsInputs s (s.hostRead off n) := by
  rcases s.hostRead_cases off n with h | h <;> rw [h]
  · exact { KeepsInputs.refl s with }
  · exact { s.recordError_keepsInputs .badAccess with }

theorem State.issue_keepsInputs (v : Word) (s : State) : KeepsInputs s (s.issue v) := by
  rcases s.issue_cases v with ⟨-, h⟩ | ⟨-, h⟩ <;> rw [h]
  · exact { KeepsInputs.refl s with }
  · exact { State.rejectCommand_keepsInputs (check v s) { s with cmd := v } with }

theorem keyOffset_mem (j : Fin 4) : 0x10 + 4 * j.val ∈ [0x10, 0x14, 0x18, 0x1C] := by
  decide +revert

theorem dinOffset_mem (c : Fin 4) : 0x20 + 4 * c.val ∈ [0x20, 0x24, 0x28, 0x2C] := by
  decide +revert

/-- All a step can do to them. -/
theorem step_inputs_cases {s t : State} (h : step s = .next t) :
    KeepsInputs s t ∨
    (s.writesKey ∧ ∃ j v, t = s.popAction.writeKey j v) ∨
    (s.writesDin ∧ ∃ c v, t = s.popAction.writeDin c v) ∨
    (s.resetsNext ∧ t = s.popAction.resetEngine) ∨
    (∃ i u, s.completes i ∧ exec i s.popAction = .next u ∧ t = u.finishCommand) := by
  rcases step_cases h with ⟨off, n, rest, ha, rfl⟩ | ⟨off, n, v, rest, ha, rfl⟩ | ⟨hr, rfl⟩ | ⟨hn, hc⟩
  · exact .inl { State.hostRead_keepsInputs off n { s with actions := rest } with }
  · have hpop : s.popAction = { s with actions := rest } := by rw [State.popAction, ha, List.tail_cons]
    rw [hpop]
    rcases State.hostWrite_cases off n v { s with actions := rest } with
      ⟨-, hw⟩ | ⟨j, rfl, hoff, hp, hw⟩ | ⟨c, rfl, hoff, hp, hw⟩ | ⟨code, -, hw⟩ <;> rw [hw]
    · exact .inl { State.issue_keepsInputs v { s with actions := rest } with }
    · exact .inr (.inl ⟨⟨s.busy_eq_false.2 hp, off, v, rest, ha, hoff ▸ keyOffset_mem j⟩, j, v, rfl⟩)
    · exact .inr (.inr (.inl ⟨⟨s.busy_eq_false.2 hp, off, v, rest, ha, hoff ▸ dinOffset_mem c⟩, c, v, rfl⟩))
    · exact .inl { State.recordError_keepsInputs code { s with actions := rest } with }
  · exact .inr (.inr (.inr (.inl ⟨hr, rfl⟩)))
  · rcases complete_cases s.popAction with ⟨-, hs⟩ | ⟨w, i, u, hp, hd, hu, hs⟩ | ⟨w, e, -, -, hs⟩ <;>
      obtain rfl := Host.Outcome.next.inj (hs.symm.trans hc)
    · exact .inl { KeepsInputs.refl s with }
    · exact .inr (.inr (.inr (.inr ⟨i, u, ⟨hn, w, hp, hd⟩, hu, rfl⟩)))
    · exact .inl { State.rejectCommand_keepsInputs (check w s.popAction) s.popAction with }

/-- Settles O20: of the five things a step can do, the write to KEY and the reset write KEY, the write to DIN and
the reset write DIN, and none writes CAP_TABLES. -/
theorem keyDinAndCapTablesAreNotWrittenByCommands : Obligations.KeyDinAndCapTablesAreNotWrittenByCommands := by
  intro s t h
  rcases step_inputs_cases h with hk | ⟨hw, j, v, rfl⟩ | ⟨hw, c, v, rfl⟩ | ⟨hr, rfl⟩ | ⟨i, u, -, hu, rfl⟩
  · exact ⟨fun hne => absurd hk.key hne, fun hne => absurd hk.din hne, hk.capTables⟩
  · exact ⟨fun _ => .inl hw, fun hne => absurd rfl hne, rfl⟩
  · exact ⟨fun hne => absurd rfl hne, fun _ => .inl hw, rfl⟩
  · exact ⟨fun _ => .inr hr, fun _ => .inr hr, rfl⟩
  · obtain ⟨hkey, hdin⟩ := exec_keeps_inputs hu
    obtain ⟨-, -, hcap, -⟩ := exec_keeps_control hu
    exact ⟨fun hne => absurd hkey hne, fun hne => absurd hdin hne, hcap⟩

/-! ### The valid flags -/

theorem exec_sets_schedValid {i : Instr} {s t : State} (h : exec i s = .next t) (hc : checkInstr i s = .none)
    (hi : i = .expandKey ∨ i = .encrypt ∨ i = .encryptT) : t.schedValid = true := by
  rcases exec_effects h with ⟨hfail, -⟩ | ⟨-, -, -, -, -, ⟨-, hv, -⟩ | ⟨hno, -⟩, -⟩
  · exact absurd hc hfail
  · exact hv
  · exact absurd hi hno

theorem exec_sets_tablesValid {s t : State} (h : exec .genTables s = .next t) (hcap : s.capTables = true) :
    t.tablesValid = true := by
  have hc : checkInstr .genTables s = .none := by simp [checkInstr_none_iff, Instr.wf, needsTables, needsSched, hcap]
  rcases exec_effects h with ⟨hfail, -⟩ | ⟨-, -, -, -, -, -, ⟨-, hv, -⟩ | ⟨hno, -⟩, -⟩
  · exact absurd hc hfail
  · exact hv
  · exact absurd rfl hno

theorem step_of_writesKey {s : State} (h : s.writesKey) : ∃ j v, step s = .next (s.popAction.writeKey j v) := by
  obtain ⟨hb, off, v, rest, ha, hoff⟩ := h
  simp only [List.mem_cons, List.not_mem_nil, or_false] at hoff
  obtain ⟨j, hj⟩ := exists_word_index (o := off.toNat) (base := 0x0010) (by decide) (by omega) (by omega) (by omega)
  refine ⟨j, v, ?_⟩
  rw [step_of_legalWrite ha (by omega), windowTarget_key _ _ j hj,
    State.writeTarget_key_idle v (s := { s with actions := rest }) j hb, State.popAction, ha, List.tail_cons,
    State.writeKey]

/-- A command leaves SCHED_VALID alone, or is one of the three that set it. -/
theorem exec_schedValid_cases {i : Instr} {s t : State} (h : exec i s = .next t) :
    t.schedValid = s.schedValid ∨ (t.schedValid = true ∧ (i = .expandKey ∨ i = .encrypt ∨ i = .encryptT)) := by
  rcases exec_effects h with ⟨-, rfl⟩ | ⟨-, -, -, -, -, ⟨hi, hv, -⟩ | ⟨-, hv, -⟩, -⟩
  · exact .inl (State.rejectCommand_schedValid ..)
  · exact .inr ⟨hv, hi⟩
  · exact .inl hv

/-- A command leaves TABLES_VALID alone, or is GEN_TABLES and sets it. -/
theorem exec_tablesValid_cases {i : Instr} {s t : State} (h : exec i s = .next t) :
    t.tablesValid = s.tablesValid ∨ (t.tablesValid = true ∧ i = .genTables) := by
  rcases exec_effects h with ⟨-, rfl⟩ | ⟨-, -, -, -, -, -, ⟨hi, hv, -⟩ | ⟨-, hv, -⟩, -⟩
  · exact .inl (State.rejectCommand_tablesValid ..)
  · exact .inr ⟨hv, hi⟩
  · exact .inl hv

theorem step_schedValid_cases {s t : State} (h : step s = .next t) :
    t.schedValid = s.schedValid ∨ (t.schedValid = false ∧ (s.writesKey ∨ s.resetsNext)) ∨
      (t.schedValid = true ∧ (s.completes .expandKey ∨ s.completes .encrypt ∨ s.completes .encryptT)) := by
  rcases step_inputs_cases h with hk | ⟨hw, j, v, rfl⟩ | ⟨-, c, v, rfl⟩ | ⟨hr, rfl⟩ | ⟨i, u, hi, hu, rfl⟩
  · exact .inl hk.schedValid
  · exact .inr (.inl ⟨rfl, .inl hw⟩)
  · exact .inl rfl
  · exact .inr (.inl ⟨rfl, .inr hr⟩)
  · refine (exec_schedValid_cases hu).imp_right fun ⟨hv, hset⟩ => .inr ⟨hv, ?_⟩
    rcases hset with rfl | rfl | rfl
    · exact .inl hi
    · exact .inr (.inl hi)
    · exact .inr (.inr hi)

theorem step_tablesValid_cases {s t : State} (h : step s = .next t) :
    t.tablesValid = s.tablesValid ∨ (t.tablesValid = false ∧ s.resetsNext) ∨
      (t.tablesValid = true ∧ s.completes .genTables) := by
  rcases step_inputs_cases h with hk | ⟨-, j, v, rfl⟩ | ⟨-, c, v, rfl⟩ | ⟨hr, rfl⟩ | ⟨i, u, hi, hu, rfl⟩
  · exact .inl hk.tablesValid
  · exact .inl rfl
  · exact .inl rfl
  · exact .inr (.inl ⟨rfl, hr⟩)
  · exact (exec_tablesValid_cases hu).imp_right fun ⟨hv, hset⟩ => .inr ⟨hv, hset ▸ hi⟩

/-- A flag that is kept, cleared at the events `f` or set at the events `r` rises only at `r` and falls only at
`f`. -/
theorem flag_changes {b b' : Bool} {f r : Prop} (h : b' = b ∨ (b' = false ∧ f) ∨ (b' = true ∧ r)) :
    (b = false → b' = true → r) ∧ (b = true → b' = false → f) := by
  rcases h with rfl | ⟨rfl, hf⟩ | ⟨rfl, hr⟩
  · exact ⟨fun h0 h1 => absurd (h0.symm.trans h1) nofun, fun h1 h0 => absurd (h0.symm.trans h1) nofun⟩
  · exact ⟨nofun, fun _ _ => hf⟩
  · exact ⟨fun _ _ => hr, nofun⟩

theorem step_sets_schedValid {s : State} {i : Instr} (h : s.completes i) (hc : checkInstr i s.popAction = .none)
    (hi : i = .expandKey ∨ i = .encrypt ∨ i = .encryptT) : ∃ t, step s = .next t ∧ t.schedValid = true := by
  obtain ⟨t, ht⟩ := exec_total i s.popAction
  exact ⟨_, step_of_completes h ht, exec_sets_schedValid (t := t) ht hc hi⟩

/-- ENCRYPT_T asks for nothing but the tables. -/
theorem checkInstr_encryptT {s : State} (hv : s.tablesReady = true) : checkInstr .encryptT s = .none :=
  (checkInstr_none_iff _ s).2 ⟨fun _ => (Bool.and_eq_true_iff.1 hv).1, rfl, fun _ => hv, nofun⟩

/-- Settles O19: a step keeps a flag or is one of its events, and at each of the events the flag takes its
value. -/
theorem validFlagsChangeOnlyAsListed : Obligations.ValidFlagsChangeOnlyAsListed := by
  refine ⟨fun s t h => ?changes, fun s h => ?stale, fun s h => ?fresh, fun s h hcap => ?generated, fun s h => ?reset⟩
  case changes =>
    obtain ⟨hrise, hfall⟩ := flag_changes (step_schedValid_cases h)
    obtain ⟨hrise', hfall'⟩ := flag_changes (step_tablesValid_cases h)
    exact ⟨hrise, hfall, hrise', hfall'⟩
  case stale =>
    rcases h with hw | hr
    · obtain ⟨j, v, hs⟩ := step_of_writesKey hw
      exact ⟨_, hs, rfl⟩
    · exact ⟨_, step_of_resetsNext hr, rfl⟩
  case fresh =>
    rcases h with hi | hi | ⟨hi, hready⟩
    · exact step_sets_schedValid hi rfl (.inl rfl)
    · exact step_sets_schedValid hi rfl (.inr (.inl rfl))
    · exact step_sets_schedValid hi (checkInstr_encryptT (s := s.popAction) hready) (.inr (.inr rfl))
  case generated =>
    obtain ⟨t, ht⟩ := exec_total .genTables s.popAction
    exact ⟨_, step_of_completes h ht, exec_sets_tablesValid (s := s.popAction) (t := t) ht hcap⟩
  case reset => exact ⟨_, step_of_resetsNext h, rfl⟩

end Sys2Proof.Machine

/-! PROOF. No rule observes the unspecified contents of RK and T0..T3: the operations of a step one by one, on two
states that look alike to the host (70_reset_and_hazards.md R281). -/

namespace Sys2Proof.Machine

section SameView
variable {s t : State} (h : SameView s t)
include h

/-! ### What the two states have in common -/

theorem SameView.busy_eq : s.busy = t.busy := by
  rw [State.busy, h.pending, State.busy]

theorem SameView.tablesReady_eq : s.tablesReady = t.tablesReady := by
  rw [State.tablesReady, h.capTables, h.tablesValid, State.tablesReady]

theorem SameView.check_eq (v : Word) : check v s = check v t := by
  simp only [check, h.capTables, h.tablesReady_eq, h.schedValid]

theorem SameView.checkInstr_eq (i : Instr) : checkInstr i s = checkInstr i t := by
  simp only [checkInstr, h.capTables, h.tablesReady_eq, h.schedValid]

theorem SameView.statusRead_eq : s.statusRead = t.statusRead := by
  simp only [State.statusRead, h.capTables, h.err, h.errOvf, h.done, h.tablesReady_eq, h.schedValid, h.busy_eq]

theorem SameView.tableEntry_eq (hv : s.tablesReady = true) : s.tableEntry = t.tableEntry := by
  obtain ⟨h0, h1, h2, h3⟩ := h.tables hv
  exact State.tableEntry_congr h0 h1 h2 h3

/-- The windows of RK and of the tables show their contents only while these are valid (R67, R68). -/
theorem SameView.readTarget_eq (x : Target) : s.readTarget x = t.readTarget x := by
  cases x with
  | cmd => exact h.cmd
  | status => exact h.statusRead_eq
  | result => exact congrArg (fun w => zext32 (byte w 0)) h.result
  | key j => exact congrArg (·[j]) h.key
  | din c => exact congrArg (·[c]) h.din
  | dout c => exact congrArg (·[c]) h.dout
  | state c => exact congrArg (·[c]) h.state
  | id | sbox _ | unmapped => rfl
  | rk k =>
    cases hv : s.schedValid with
    | false => simp only [State.readTarget, ← h.schedValid, hv, Bool.false_eq_true, if_false]
    | true => simp only [State.readTarget, ← h.schedValid, h.rk hv]
  | table k j =>
    cases hv : s.tablesReady with
    | false => simp only [State.readTarget, ← h.tablesReady_eq, hv, Bool.false_eq_true, if_false]
    | true => simp only [State.readTarget, ← h.tablesReady_eq, h.tableEntry_eq hv]

theorem SameView.readWindow_eq (off : Offset) : s.readWindow off = t.readWindow off := by
  rw [State.readWindow, h.capTables]
  exact h.readTarget_eq _

/-! ### The shared operations -/

theorem SameView.withActions (as : List Action) :
    SameView { s with actions := as } { t with actions := as } :=
  { h with actions := rfl }

theorem SameView.withReturned {r r' : List Word} (hr : r = r') :
    SameView { s with returned := r } { t with returned := r' } :=
  { h with returned := hr }

theorem SameView.recordError (code : ErrCode) : SameView (s.recordError code) (t.recordError code) := by
  by_cases he : s.err = .none
  · rw [State.recordError_first code s he, State.recordError_first code t (h.err ▸ he)]
    exact { h with err := rfl }
  · rw [State.recordError_later code s he, State.recordError_later code t (h.err ▸ he)]
    exact { h with errOvf := rfl }

theorem SameView.rejectCommand (code : ErrCode) : SameView (s.rejectCommand code) (t.rejectCommand code) :=
  SameView.recordError (s := { s with done := true }) (t := { t with done := true }) { h with done := rfl } code

theorem SameView.finishCommand : SameView s.finishCommand t.finishCommand :=
  { h with pending := rfl, done := rfl }

theorem SameView.resetEngine : SameView s.resetEngine t.resetEngine where
  key := rfl
  din := rfl
  dout := rfl
  state := rfl
  result := rfl
  cmd := rfl
  pending := rfl
  schedValid := rfl
  tablesValid := rfl
  done := rfl
  errOvf := rfl
  err := rfl
  capTables := h.capTables
  actions := h.actions
  returned := h.returned
  rk := nofun
  tables := fun hv => by simp [State.tablesReady] at hv

/-! ### Host accesses -/

theorem SameView.hostRead (off : Offset) (n : Nat) : SameView (s.hostRead off n) (t.hostRead off n) := by
  unfold State.hostRead
  split
  · exact h.withReturned (congrArg₂ List.cons (h.readWindow_eq off) h.returned)
  · exact (h.recordError .badAccess).withReturned (congrArg (0 :: ·) h.returned)

theorem SameView.issue (v : Word) : SameView (s.issue v) (t.issue v) := by
  by_cases hc : check v s = .none
  · rw [State.issue_accepted hc, State.issue_accepted (h.check_eq v ▸ hc)]
    exact { h with cmd := rfl, pending := rfl, done := rfl }
  · rw [State.issue_rejected hc, State.issue_rejected (h.check_eq v ▸ hc), h.check_eq v]
    exact SameView.rejectCommand (s := { s with cmd := v }) (t := { t with cmd := v }) { h with cmd := rfl } _

theorem SameView.writeTarget (v : Word) (x : Target) : SameView (s.writeTarget v x) (t.writeTarget v x) := by
  by_cases hx : x = .cmd ∨ (∃ j, x = .key j) ∨ ∃ c, x = .din c
  · cases hb : s.busy with
    | true =>
      rw [State.writeTarget_busy v hb hx, State.writeTarget_busy v (h.busy_eq ▸ hb) hx]
      exact h.recordError .busy
    | false =>
      have hb' := h.busy_eq ▸ hb
      rcases hx with rfl | ⟨j, rfl⟩ | ⟨c, rfl⟩
      · rw [State.writeTarget_cmd_idle v hb, State.writeTarget_cmd_idle v hb']
        exact h.issue v
      · rw [State.writeTarget_key_idle v j hb, State.writeTarget_key_idle v j hb']
        exact { h with key := congrArg (·.set j v) h.key, schedValid := rfl, rk := nofun }
      · rw [State.writeTarget_din_idle v c hb, State.writeTarget_din_idle v c hb']
        exact { h with din := congrArg (·.set c v) h.din }
  · simp only [not_or, not_exists] at hx
    obtain ⟨hc, hk, hd⟩ := hx
    rw [State.writeTarget_readOnly v s hc hk hd, State.writeTarget_readOnly v t hc hk hd]
    exact h.recordError .badAccess

theorem SameView.hostWrite (off : Offset) (n : Nat) (v : Word) :
    SameView (s.hostWrite off n v) (t.hostWrite off n v) := by
  unfold State.hostWrite
  rw [h.capTables]
  split
  · exact h.writeTarget v _
  · exact h.recordError .badAccess

end SameView

/-! ### Commands -/

/-- Both outcomes are next states, and these look alike to the host. -/
def SameOutcome (o o' : Host.Outcome State Fault Refusal) : Prop :=
  ∃ s t, o = .next s ∧ o' = .next t ∧ SameView s t

theorem SameOutcome.next {s t : State} (h : SameView s t) : SameOutcome (.next s) (.next t) :=
  ⟨s, t, rfl, rfl, h⟩

section Commands
variable {s t : State} (h : SameView s t)
include h

/-- A checked command is turned away in both states, or its checks pass in both. -/
theorem SameView.performChecked {i : Instr} {e e' : State} (he : checkInstr i s = .none → SameView e e') :
    SameOutcome (performChecked i s e) (performChecked i t e') := by
  have hi := h.checkInstr_eq i
  rcases performChecked_cases i s e with ⟨hc, hp⟩ | ⟨hc, hp⟩ <;> rw [hp]
  · rw [performChecked_pass (hi ▸ hc)]
    exact .next (he hc)
  · rw [performChecked_fail (hi ▸ hc), hi]
    exact .next (h.rejectCommand _)

theorem SameView.withState {b b' : Block} (hb : b = b') :
    SameView { s with state := b } { t with state := b' } :=
  { h with state := hb }

theorem SameView.withSchedule {w w' : KeySchedule} (hw : w = w') :
    SameView { s with rk := w, schedValid := true } { t with rk := w', schedValid := true } :=
  { h with rk := fun _ => hw, schedValid := rfl }

theorem SameView.withOutput {b b' : Block} (hb : b = b') :
    SameView { s with state := b, dout := b } { t with state := b', dout := b' } :=
  { h with state := hb, dout := hb }

theorem SameView.withTables (a b c d : Table) :
    SameView { s with t0 := a, t1 := b, t2 := c, t3 := d, tablesValid := true }
      { t with t0 := a, t1 := b, t2 := c, t3 := d, tablesValid := true } :=
  { h with tables := fun _ => ⟨rfl, rfl, rfl, rfl⟩, tablesValid := rfl }

theorem SameView.keyExpansion_eq : keyExpansion s.key = keyExpansion t.key := by
  rw [h.key]

/-- Past its checks a command that reads RK has the same one in both states. -/
theorem SameView.rk_of_check {i : Instr} (hi : needsSched i = true) (hc : checkInstr i s = .none) : s.rk = t.rk := by
  obtain ⟨-, -, -, hsched⟩ := (checkInstr_none_iff i s).1 hc
  exact h.rk (hsched hi)

/-- Past its checks a command that reads the tables looks up the same columns in both states. -/
theorem SameView.tableRound_of_check {i : Instr} (hi : needsTables i = true) (hc : checkInstr i s = .none) :
    tableRound s = tableRound t := by
  obtain ⟨-, -, hready, -⟩ := (checkInstr_none_iff i s).1 hc
  obtain ⟨h0, h1, h2, h3⟩ := h.tables (hready hi)
  funext W S n
  simp only [tableRound, h0, h1, h2, h3]

/-- Every command reads only what the two states have in common, or what its checks make valid. -/
theorem SameView.exec (i : Instr) : SameOutcome (exec i s) (exec i t) := by
  cases i with
  | nop => exact .next h
  | loadBlock => exact .next (h.withState h.din)
  | storeBlock => exact .next { h with dout := h.state }
  | expandKey => exact .next (h.withSchedule h.keyExpansion_eq)
  | addRoundKey n =>
    exact h.performChecked fun hc => h.withState (by rw [h.rk_of_check rfl hc, h.state])
  | subBytes => exact .next (h.withState (congrArg subBytes h.state))
  | shiftRows => exact .next (h.withState (congrArg shiftRows h.state))
  | mixColumns => exact .next (h.withState (congrArg mixColumns h.state))
  | round n =>
    exact h.performChecked fun hc => h.withState (by rw [h.rk_of_check rfl hc, h.state])
  | finalRound =>
    exact h.performChecked fun hc => h.withState (by rw [h.rk_of_check rfl hc, h.state])
  | encrypt =>
    have hcipher : (cipher s.key s.din).1 = (cipher t.key t.din).1 := by rw [h.key, h.din]
    exact .next ((h.withSchedule h.keyExpansion_eq).withOutput hcipher)
  | xtime arg => exact .next { h with result := rfl }
  | sbox arg => exact .next { h with result := rfl }
  | genTables => exact h.performChecked fun _ => h.withTables _ _ _ _
  | tRound n =>
    exact h.performChecked fun hc =>
      h.withState (by rw [h.tableRound_of_check rfl hc, h.rk_of_check rfl hc, h.state])
  | encryptT =>
    refine h.performChecked fun hc => ?_
    have hcipher : tableCipher s (keyExpansion s.key) = tableCipher t (keyExpansion t.key) := by
      rw [tableCipher, tableCipher, h.tableRound_of_check rfl hc, h.key, h.din]
    exact (h.withSchedule h.keyExpansion_eq).withOutput hcipher
  | clrErr => exact .next { h with err := rfl, errOvf := rfl }

theorem SameView.complete : SameOutcome (complete s) (complete t) := by
  rcases complete_cases s with ⟨hp, hs⟩ | ⟨w, i, u, hp, hd, hu, hs⟩ | ⟨w, e, hp, hd, hs⟩ <;> rw [hs]
  · rw [complete_idle (h.pending ▸ hp)]
    exact .next h
  · obtain ⟨_, u', hu₁, hu', hview⟩ := h.exec i
    obtain rfl := Host.Outcome.next.inj (hu.symm.trans hu₁)
    rw [complete_of_command (h.pending ▸ hp) hd hu']
    exact .next hview.finishCommand
  · rw [complete_of_undecoded (h.pending ▸ hp) hd, h.check_eq w]
    exact .next (h.rejectCommand _).finishCommand

theorem SameView.performAction (a : Action) : SameOutcome (performAction a s) (performAction a t) := by
  cases a with
  | hostRead off n => exact .next (h.hostRead off n)
  | hostWrite off n v => exact .next (h.hostWrite off n v)
  | complete => exact h.complete
  | reset => exact .next h.resetEngine

/-- The actions to come are the same, so both states take the same step. -/
theorem SameView.step : SameOutcome (step s) (step t) := by
  cases ha : s.actions with
  | nil =>
    rw [step_of_none ha, step_of_none (h.actions ▸ ha)]
    exact h.complete
  | cons a rest =>
    rw [step_of_action ha, step_of_action (h.actions ▸ ha)]
    exact (h.withActions rest).performAction a

end Commands

/-- Settles O48: each step and each read uses only what the two states have in common. -/
theorem unspecifiedContentsAreInvisible : Obligations.UnspecifiedContentsAreInvisible := by
  refine ⟨fun s t s' t' h hs ht => ?_, fun s t off h => h.readWindow_eq off⟩
  obtain ⟨u, u', hu, hu', hview⟩ := h.step
  obtain rfl := Host.Outcome.next.inj (hu.symm.trans hs)
  obtain rfl := Host.Outcome.next.inj (hu'.symm.trans ht)
  exact hview

end Sys2Proof.Machine

/-! PROOF. Runs: host accesses while a command is pending, polling, the end of a run, and reset
(20_memory.md R66, R75; 70_reset_and_hazards.md R280-R293). -/

namespace Sys2Proof.Machine

/-! ### Accesses while a command is pending -/

/-- A host read changes only the report and what the host has read. -/
theorem State.hostRead_report (off : Offset) (n : Nat) (s : State) :
    ∃ e o r, s.hostRead off n = { s.withReport e o with returned := r } := by
  rcases s.hostRead_cases off n with h | h
  · exact ⟨s.err, s.errOvf, _, h⟩
  · obtain ⟨e, o, hr⟩ := s.recordError_report .badAccess
    exact ⟨e, o, _, h.trans (by rw [hr])⟩

/-- A host write while a command is pending changes only the report. -/
theorem State.hostWrite_report {s : State} {w : Word} (hp : s.pending = some w) (off : Offset) (n : Nat)
    (v : Word) : ∃ e o, s.hostWrite off n v = s.withReport e o := by
  rcases s.hostWrite_cases off n v with ⟨h, -⟩ | ⟨_, -, -, h, -⟩ | ⟨_, -, -, h, -⟩ | ⟨code, -, h⟩
  · exact absurd (h.symm.trans hp) nofun
  · exact absurd (h.symm.trans hp) nofun
  · exact absurd (h.symm.trans hp) nofun
  · rw [h]
    exact s.recordError_report code

theorem step_of_access {s : State} {w : Word} {a : Action} {rest : List Action} (hp : s.pending = some w)
    (ha : s.actions = a :: rest) (hacc : a.isAccess = true) :
    ∃ e o r, step s = .next { s with actions := rest, returned := r, err := e, errOvf := o } := by
  rw [step_of_action ha]
  cases a with
  | hostRead off n =>
    obtain ⟨e, o, r, h⟩ := State.hostRead_report off n { s with actions := rest }
    exact ⟨e, o, r, congrArg _ h⟩
  | hostWrite off n v =>
    obtain ⟨e, o, h⟩ := State.hostWrite_report (s := { s with actions := rest }) hp off n v
    exact ⟨e, o, s.returned, congrArg _ h⟩
  | complete | reset => cases hacc

/-- Settles O49: by induction on the accesses, each of which leaves the command pending. -/
theorem accessesDoNotDisturbAPendingCommand : Obligations.AccessesDoNotDisturbAPendingCommand := by
  intro accesses rest s w hacc hp ha
  induction accesses generalizing s with
  | nil =>
    obtain rfl : s.actions = rest := ha
    exact ⟨s, rfl, rfl⟩
  | cons a accesses ih =>
    obtain ⟨ha₁, hrest⟩ := List.forall_mem_cons.1 hacc
    obtain ⟨e, o, r, hs⟩ := step_of_access hp ha ha₁
    obtain ⟨t, ht, heq⟩ := ih { s with actions := accesses ++ rest, returned := r, err := e, errOvf := o } hrest hp rfl
    exact ⟨t, (runSteps_succ _ hs).trans ht, heq⟩

/-- Settles O39: the meaning of CLR_ERR; a refused write leaves it pending, and its completion clears what the
write recorded. -/
theorem clrErrClearsTheErrorReport : Obligations.ClrErrClearsTheErrorReport := by
  refine ⟨fun s => rfl, fun s off v rest hp ha => ?_⟩
  obtain ⟨e, o, hw⟩ := State.hostWrite_report (s := { s with actions := .complete :: rest }) hp off 4 v
  have hstep : step s = .next (({ s with actions := .complete :: rest } : State).withReport e o) :=
    (step_of_action ha).trans (congrArg _ hw)
  have hclr : (({ s with actions := .complete :: rest } : State).withReport e o).completes .clrErr :=
    ⟨.inr ⟨rest, rfl⟩, _, hp, decode_encode .clrErr⟩
  exact (runSteps_succ 1 hstep).trans (runSteps_succ 0 (step_of_completes hclr rfl))

/-! ### Polling -/

/-- The state with another host: other actions to come, other values read. -/
def State.withHost (as : List Action) (r : List Word) (s : State) : State :=
  { s with actions := as, returned := r }

section Host
variable (as : List Action) (r : List Word) {s t : State}

theorem State.rejectCommand_withHost (code : ErrCode) (s : State) :
    (s.withHost as r).rejectCommand code = (s.rejectCommand code).withHost as r := by
  by_cases h : s.err = .none
  · rw [State.rejectCommand_first _ s h, State.rejectCommand_first _ (s.withHost as r) h]
    rfl
  · rw [State.rejectCommand_later _ s h, State.rejectCommand_later _ (s.withHost as r) h]
    rfl

theorem performChecked_withHost {i : Instr} {e : State} (h : performChecked i s e = .next t) :
    performChecked i (s.withHost as r) (e.withHost as r) = .next (t.withHost as r) := by
  rcases performChecked_cases i s e with ⟨hc, hp⟩ | ⟨hc, hp⟩ <;> obtain rfl := Host.Outcome.next.inj (hp.symm.trans h)
  · exact performChecked_pass (s := s.withHost as r) hc
  · rw [performChecked_fail (s := s.withHost as r) hc, State.rejectCommand_withHost]
    rfl

/-- No command reads the host's side of the state. -/
theorem exec_withHost {i : Instr} (h : exec i s = .next t) :
    exec i (s.withHost as r) = .next (t.withHost as r) := by
  cases i with
  | addRoundKey _ | round _ | finalRound | genTables | tRound _ | encryptT =>
    -- stated on its own, so that no table is unfolded to compare the two effects
    have hexec := performChecked_withHost as r h
    exact hexec
  | _ =>
    obtain rfl := Host.Outcome.next.inj h
    rfl

theorem complete_withHost (h : complete s = .next t) : complete (s.withHost as r) = .next (t.withHost as r) := by
  rcases complete_cases s with ⟨hp, hc⟩ | ⟨w, i, u, hp, hd, hu, hc⟩ | ⟨w, e, hp, hd, hc⟩ <;>
    obtain rfl := Host.Outcome.next.inj (hc.symm.trans h)
  · exact complete_idle (s := s.withHost as r) hp
  · exact complete_of_command (s := s.withHost as r) hp hd (exec_withHost as r hu)
  · rw [complete_of_undecoded (s := s.withHost as r) hp hd, State.rejectCommand_withHost]
    rfl

end Host

/-- Each poll that sees the same STATUS adds it to what the host has read. -/
theorem runSteps_polls (polls k : Nat) (as : List Action) (r : List Word) (s : State) :
    runSteps (polls + k) (s.withHost (List.replicate polls (HostProgram.rd 0x0004) ++ as) r) =
      runSteps k (s.withHost as (List.replicate polls s.statusRead ++ r)) := by
  induction polls generalizing r with
  | zero => rw [Nat.zero_add]; rfl
  | succ polls ih =>
    rw [Nat.add_right_comm]
    calc runSteps (polls + k + 1) (s.withHost (List.replicate (polls + 1) (HostProgram.rd 0x0004) ++ as) r)
      _ = runSteps (polls + k)
          (s.withHost (List.replicate polls (HostProgram.rd 0x0004) ++ as) (s.statusRead :: r)) :=
        runSteps_succ _ (step_of_statusRead ⟨List.replicate polls (HostProgram.rd 0x0004) ++ as, rfl⟩)
      _ = runSteps k (s.withHost as (List.replicate polls s.statusRead ++ s.statusRead :: r)) := ih _
      _ = runSteps k (s.withHost as (List.replicate (polls + 1) s.statusRead ++ r)) := by
        rw [List.replicate_succ', List.append_assoc, List.singleton_append]

/-- No completion step touches the coming actions, and none leaves a command pending. -/
theorem complete_actions_pending {s t : State} (h : complete s = .next t) :
    t.actions = s.actions ∧ t.pending = none := by
  rcases complete_cases s with ⟨hp, hc⟩ | ⟨w, i, u, -, -, hu, hc⟩ | ⟨w, e, -, -, hc⟩ <;>
    obtain rfl := Host.Outcome.next.inj (hc.symm.trans h)
  · exact ⟨rfl, hp⟩
  · obtain ⟨-, -, -, hactions, -⟩ := exec_keeps_control hu
    exact ⟨hactions, rfl⟩
  · exact ⟨State.rejectCommand_actions .., rfl⟩

/-- Settles O50: the polls read the STATUS of the pending command, the completion is the one that was forced with
no action to come, and the last poll reads the STATUS after it. -/
theorem pollingHidesTheCompletionPoint : Obligations.PollingHidesTheCompletionPoint := by
  intro polls s t ha _ hs
  rw [step_of_none ha] at hs
  obtain ⟨hactions, -⟩ := complete_actions_pending hs
  have hdone := complete_withHost [HostProgram.rd 0x0004] (List.replicate polls s.statusRead ++ s.returned) hs
  calc runSteps (polls + 2) (s.withHost (HostProgram.wait polls) s.returned)
    _ = runSteps 2 (s.withHost [.complete, HostProgram.rd 0x0004] (List.replicate polls s.statusRead ++ s.returned)) :=
      runSteps_polls polls 2 _ _ s
    _ = runSteps 1 (t.withHost [HostProgram.rd 0x0004] (List.replicate polls s.statusRead ++ s.returned)) :=
      runSteps_succ 1 ((step_of_completesNext (.inr ⟨_, rfl⟩)).trans hdone)
    _ = .next (t.withHost [] (t.statusRead :: (List.replicate polls s.statusRead ++ s.returned))) :=
      runSteps_succ 0 (step_of_statusRead ⟨[], rfl⟩)
    _ = _ := congrArg (fun as => Host.Outcome.next (t.withHost as _)) (hactions.trans ha).symm

/-! ### The end of a run -/

theorem State.issue_actions (v : Word) (s : State) : (s.issue v).actions = s.actions := by
  rcases s.issue_cases v with ⟨-, h⟩ | ⟨-, h⟩ <;> simp [h]

/-- Every step takes its action off the list. -/
theorem step_actions {s t : State} (h : step s = .next t) : t.actions = s.actions.tail := by
  rcases step_cases h with ⟨off, n, rest, ha, rfl⟩ | ⟨off, n, v, rest, ha, rfl⟩ | ⟨-, rfl⟩ | ⟨-, hc⟩
  · rw [ha]
    rcases State.hostRead_cases off n { s with actions := rest } with hr | hr <;> simp [hr]
  · rw [ha]
    rcases State.hostWrite_cases off n v { s with actions := rest } with
      ⟨-, hw⟩ | ⟨_, -, -, -, hw⟩ | ⟨_, -, -, -, hw⟩ | ⟨_, -, hw⟩ <;> simp [hw, State.issue_actions]
  · rfl
  · exact (complete_actions_pending hc).1

/-- Settles O51: by induction on the actions to come; with none left the step is the completion. -/
theorem everyHostProgramReachesItsEnd : Obligations.EveryHostProgramReachesItsEnd := by
  intro s
  induction ha : s.actions generalizing s with
  | nil =>
    obtain ⟨t, ht⟩ := complete_total s
    obtain ⟨hactions, hp⟩ := complete_actions_pending ht
    exact ⟨t, runSteps_succ 0 ((step_of_none ha).trans ht), hactions.trans ha, hp⟩
  | cons a rest ih =>
    obtain ⟨u, hu⟩ := step_total s
    obtain ⟨t, ht, hfin⟩ := ih u ((step_actions hu).trans (congrArg List.tail ha))
    exact ⟨t, (runSteps_succ _ hu).trans ht, hfin⟩

/-! ### Reset -/

/-- STATUS after reset: only CAP_TABLES can be set (R280). -/
theorem State.resetEngine_statusRead (s : State) :
    s.resetEngine.statusRead = if s.capTables then 0x00010000 else 0x00000000 := by
  simp only [State.statusRead, State.tablesReady, State.busy, State.resetEngine_capTables,
    State.resetEngine_err, State.resetEngine_errOvf, State.resetEngine_done, State.resetEngine_tablesValid,
    State.resetEngine_schedValid, State.resetEngine_pending]
  cases s.capTables <;> rfl

theorem zeroBlock_getElem (c : Fin 4) : (Vector.replicate 4 0 : Block)[c] = 0 :=
  Vector.getElem_replicate ..

/-- Settles O46: the reset values as they stand, and STATUS by evaluation. -/
theorem resetStateHasTheSpecValues : Obligations.ResetStateHasTheSpecValues :=
  ⟨fun c => ⟨zeroBlock_getElem c, zeroBlock_getElem c, zeroBlock_getElem c, zeroBlock_getElem c⟩,
    rfl, rfl, rfl, rfl, rfl, rfl, rfl, rfl, rfl, by decide⟩

/-- Settles O47: the step is the reset of the state with its action taken off. -/
theorem resetInputGivesTheResetState : Obligations.ResetInputGivesTheResetState := by
  intro s rest ha
  exact ⟨s.popAction.resetEngine, step_of_resetsNext ⟨rest, ha⟩,
    fun c => ⟨zeroBlock_getElem c, zeroBlock_getElem c, zeroBlock_getElem c, zeroBlock_getElem c⟩,
    rfl, rfl, rfl, rfl, rfl, rfl, rfl, rfl, rfl, s.popAction.resetEngine_statusRead, congrArg List.tail ha, rfl⟩

end Sys2Proof.Machine

/-! PROOF. The field: xtime and the product are linear and the product commutes, so inverses are unique and the
S-box is the affine image of the inverse; and the words of four bytes (40_field_and_sbox.md). -/

namespace Sys2Proof.Machine

/-! ### xtime -/

/-- xtime as the shift, reduced where bit 7 falls out (R121). -/
theorem xtime_eq (a : Byte) : xtime a = a <<< 1 ^^^ (if a.getLsbD 7 then 0x1B else 0) := by
  decide +revert

theorem xtime_zero : xtime 0 = 0 := by decide

theorem ite_xor_ite {w : Nat} (p q : Bool) (x : BitVec w) :
    (if p ^^ q then x else 0) = (if p then x else 0) ^^^ (if q then x else 0) := by
  cases p <;> cases q <;> simp

theorem xtime_xor (a b : Byte) : xtime (a ^^^ b) = xtime a ^^^ xtime b := by
  rw [xtime_eq, xtime_eq, xtime_eq, BitVec.shiftLeft_xor_distrib, BitVec.getLsbD_xor, ite_xor_ite]
  ac_rfl

theorem xtime_eq_zero_iff (a : Byte) : xtime a = 0 ↔ a = 0 := by
  decide +revert

/-- A linear map with no zero but 0 is injective. -/
theorem xtime_injective : Function.Injective xtime := by
  intro a b h
  have hzero : xtime (a ^^^ b) = 0 := by
    rw [xtime_xor, h]
    exact BitVec.xor_self
  exact BitVec.xor_eq_zero_iff.1 ((xtime_eq_zero_iff _).1 hzero)

/-- An injective map of the 256 bytes to themselves is onto. -/
theorem byte_bijective_of_injective {f : Byte → Byte} (h : Function.Injective f) : Function.Bijective f :=
  haveI : Finite Byte := Finite.of_injective BitVec.toFin fun _ _ => BitVec.eq_of_toFin_eq
  Finite.injective_iff_bijective.1 h

theorem toNat_le_iff_bit7 (a : Byte) : a.toNat ≤ 0x7F ↔ a.getLsbD 7 = false := by
  decide +revert

/-- Settles O53: the corner values by evaluation, and the bijection from linearity. -/
theorem xtimeCornerCases : Obligations.XtimeCornerCases :=
  ⟨xtime_eq_zero_iff, by decide, by decide, by decide, byte_bijective_of_injective xtime_injective,
    toNat_le_iff_bit7, by decide⟩

theorem zext32_xtime_toNat (a : Byte) :
    (zext32 (xtime a)).toNat = if a.toNat < 128 then 2 * a.toNat else (2 * a.toNat) ^^^ 0x11B := by
  decide +revert

/-- Settles O31: the command's meaning, and xtime on the number the byte is. -/
theorem xtimeWritesTheReducedDouble : Obligations.XtimeWritesTheReducedDouble :=
  fun s a => ⟨{ s with result := zext32 (xtime a) }, rfl, zext32_xtime_toNat a, rfl⟩

/-! ### The product -/

/-- The sum over the exponents `is` in `b` of `a` times x^i, added to `acc`: `gfMul` is it over 0..7 from 0. -/
def gfSum (b : Byte) (is : List Nat) (acc a : Byte) : Byte :=
  is.foldl (fun acc i => if b.getLsbD i then acc ^^^ Nat.iterate xtime i a else acc) acc

theorem gfMul_eq_gfSum (a b : Byte) : gfMul a b = gfSum b (List.range 8) 0 a := rfl

theorem gfSum_cons (b : Byte) (i : Nat) (is : List Nat) (acc a : Byte) :
    gfSum b (i :: is) acc a = gfSum b is (if b.getLsbD i then acc ^^^ Nat.iterate xtime i a else acc) a := rfl

theorem iterate_xtime_xor (n : Nat) (a b : Byte) :
    Nat.iterate xtime n (a ^^^ b) = Nat.iterate xtime n a ^^^ Nat.iterate xtime n b := by
  induction n generalizing a b with
  | zero => rfl
  | succ n ih => rw [Function.iterate_succ_apply, xtime_xor, ih]; rfl

theorem gfSum_xor (b : Byte) (is : List Nat) (acc acc' a a' : Byte) :
    gfSum b is (acc ^^^ acc') (a ^^^ a') = gfSum b is acc a ^^^ gfSum b is acc' a' := by
  induction is generalizing acc acc' with
  | nil => rfl
  | cons i is ih =>
    rw [gfSum_cons, gfSum_cons, gfSum_cons, ← ih, iterate_xtime_xor]
    congr 1
    split
    · ac_rfl
    · rfl

theorem gfMul_xor_left (a a' b : Byte) : gfMul (a ^^^ a') b = gfMul a b ^^^ gfMul a' b := by
  simp only [gfMul_eq_gfSum]
  exact gfSum_xor b _ 0 0 a a'

/-- A linear map that commutes with xtime goes through the sum. -/
theorem map_gfSum {f : Byte → Byte} (hxor : ∀ x y, f (x ^^^ y) = f x ^^^ f y)
    (hxtime : ∀ x, f (xtime x) = xtime (f x)) (b : Byte) (is : List Nat) (acc a : Byte) :
    f (gfSum b is acc a) = gfSum b is (f acc) (f a) := by
  induction is generalizing acc with
  | nil => rfl
  | cons i is ih =>
    rw [gfSum_cons, gfSum_cons, ih, apply_ite f, hxor, Function.Semiconj.iterate_right (f := f) hxtime i a]

theorem zero_gfMul (b : Byte) : gfMul 0 b = 0 := by
  have h := gfMul_xor_left 0 0 b
  rwa [BitVec.xor_self, BitVec.xor_self] at h

theorem xtime_gfMul (a b : Byte) : xtime (gfMul a b) = gfMul (xtime a) b := by
  rw [gfMul_eq_gfSum, gfMul_eq_gfSum, map_gfSum xtime_xor (fun _ => rfl), xtime_zero]

/-- Multiplying by `b` is linear and commutes with xtime, so it goes through the product by `c`. -/
theorem gfMul_right_comm (a b c : Byte) : gfMul (gfMul a b) c = gfMul (gfMul a c) b := by
  have h := map_gfSum (f := (gfMul · b)) (fun x y => gfMul_xor_left x y b) (fun x => (xtime_gfMul x b).symm)
    c (List.range 8) 0 a
  rw [zero_gfMul] at h
  exact h.symm

theorem one_gfMul (b : Byte) : gfMul 1 b = b := by
  decide +revert

theorem gfMul_comm (a b : Byte) : gfMul a b = gfMul b a :=
  calc gfMul a b
    _ = gfMul (gfMul 1 a) b := by rw [one_gfMul]
    _ = gfMul (gfMul 1 b) a := gfMul_right_comm 1 a b
    _ = gfMul b a := by rw [one_gfMul]

theorem gfMul_inverse_unique {a b b' : Byte} (h : gfMul a b = 1) (h' : gfMul a b' = 1) : b = b' :=
  calc b
    _ = gfMul (gfMul a b') b := by rw [h', one_gfMul]
    _ = gfMul (gfMul a b) b' := gfMul_right_comm a b' b
    _ = b' := by rw [h, one_gfMul]

/-! ### The S-box -/

/-- The inverse of the S-box's affine map. -/
def sboxAffineInv (y : Byte) : Byte :=
  y.rotateLeft 1 ^^^ y.rotateLeft 3 ^^^ y.rotateLeft 6 ^^^ 0x05

theorem sboxAffine_inv (y : Byte) : sboxAffine (sboxAffineInv y) = y := by
  decide +revert

/-- Under the affine map the S-box is the inverse in GF(2^8) (R124), entry by entry of the table. -/
theorem gfMul_sbox_inverse (a : Byte) (h : a ≠ 0) : gfMul a (sboxAffineInv (sbox a)) = 1 := by
  decide +revert

theorem sbox_eq_affine {a b : Byte} (h : (a = 0 ∧ b = 0) ∨ gfMul a b = 1) : sbox a = sboxAffine b := by
  rcases h with ⟨rfl, rfl⟩ | h
  · decide
  · have ha : a ≠ 0 := by
      rintro rfl
      rw [zero_gfMul] at h
      exact absurd h (by decide)
    rw [gfMul_inverse_unique h (gfMul_sbox_inverse a ha), sboxAffine_inv]

/-- Settles O32: the command's meaning, the table entry as the affine image of the one inverse there is, and the
inverse read off the table. -/
theorem sboxCommandWritesTheAffineInverse : Obligations.SboxCommandWritesTheAffineInverse :=
  ⟨fun s a _ h => ⟨{ s with result := zext32 (sbox a) }, rfl, congrArg zext32 (sbox_eq_affine h), rfl⟩,
    fun a ha => ⟨_, gfMul_sbox_inverse a ha⟩⟩

theorem sboxAffineInv_sbox_eq_zero_iff (a : Byte) : sboxAffineInv (sbox a) = 0 ↔ a = 0 := by
  decide +revert

/-- Two bytes with one image have one inverse. -/
theorem sbox_injective : Function.Injective sbox := by
  intro a a' h
  by_cases ha : a = 0
  · have ha' := (sboxAffineInv_sbox_eq_zero_iff a).2 ha
    rw [h, sboxAffineInv_sbox_eq_zero_iff] at ha'
    rw [ha, ha']
  · have ha' : a' ≠ 0 := by
      rwa [ne_eq, ← sboxAffineInv_sbox_eq_zero_iff, ← h, sboxAffineInv_sbox_eq_zero_iff]
    have hinv := gfMul_sbox_inverse a ha
    have hinv' := gfMul_sbox_inverse a' ha'
    rw [gfMul_comm] at hinv hinv'
    exact gfMul_inverse_unique hinv (h ▸ hinv')

theorem sbox_ne (a : Byte) : sbox a ≠ a ∧ sbox a ≠ a ^^^ 0xFF := by
  decide +revert

/-- Settles O54: the permutation from the uniqueness of inverses, the rest entry by entry of the table. -/
theorem sboxIsAPermutationWithoutFixedPoints : Obligations.SboxIsAPermutationWithoutFixedPoints :=
  ⟨byte_bijective_of_injective sbox_injective, fun a => (sbox_ne a).1, fun a => (sbox_ne a).2,
    by decide, by decide, by decide⟩

end Sys2Proof.Machine

/-! PROOF. The bytes of a word and the lanes of a state: the word helpers, the round transforms lane by lane, and
the commands that apply them (40_field_and_sbox.md section 3; 42_round_transforms.md). -/

namespace Sys2Proof.Machine

/-! ### The word helpers -/

@[simp] theorem rotWord_pack (b0 b1 b2 b3 : Byte) : rotWord (pack b0 b1 b2 b3) = pack b1 b2 b3 b0 := by
  simp [rotWord]

/-- As a number RotWord is a rotation right by 8 bits (R127). -/
theorem rotWord_eq_shifts (w : Word) : rotWord w = (w >>> 8) ||| (w <<< 24) := by
  have hlow : w.toNat >>> 8 < 2 ^ 24 := by
    rw [Nat.shiftRight_eq_div_pow]
    omega
  have hhigh : w.toNat <<< 24 % 2 ^ 32 = (w.toNat % 256) <<< 24 := by
    rw [Nat.shiftLeft_eq, Nat.shiftLeft_eq]
    omega
  apply BitVec.eq_of_toNat_eq
  rw [rotWord, pack_toNat, BitVec.toNat_or, BitVec.toNat_ushiftRight, BitVec.toNat_shiftLeft, hhigh, Nat.or_comm,
    ← Nat.shiftLeft_add_eq_or_of_lt hlow, Nat.shiftLeft_eq, Nat.shiftRight_eq_div_pow]
  simp only [byte_toNat]
  omega

/-- Row `r` of a packed column. -/
theorem byte_pack (b : Fin 4 → Byte) (r : Fin 4) : byte (pack (b 0) (b 1) (b 2) (b 3)) r.val = b r := by
  match r with
  | 0 => exact byte_pack_zero ..
  | 1 => exact byte_pack_one ..
  | 2 => exact byte_pack_two ..
  | 3 => exact byte_pack_three ..

theorem byte_rotWord (w : Word) (r : Fin 4) : byte (rotWord w) r.val = byte w ((r.val + 1) % 4) :=
  byte_pack (fun r => byte w ((r.val + 1) % 4)) r

theorem rotWord_isPeriodicPt (w : Word) : Function.IsPeriodicPt rotWord 4 w := by
  calc rotWord (rotWord (rotWord (rotWord w)))
    _ = rotWord (rotWord (rotWord (rotWord (pack (byte w 0) (byte w 1) (byte w 2) (byte w 3))))) := by rw [pack_bytes]
    _ = w := by rw [rotWord_pack, rotWord_pack, rotWord_pack, rotWord_pack, pack_bytes]

/-- Four rotations are none, so the count need not be cut (R128). -/
theorem rotBytes_eq_iterate (w : Word) (k : Nat) : rotBytes w k = Nat.iterate rotWord k w :=
  (rotWord_isPeriodicPt w).iterate_mod_apply k

theorem rotBytes_succ (w : Word) (k : Nat) : rotBytes w (k + 1) = rotWord (rotBytes w k) := by
  rw [rotBytes_eq_iterate, rotBytes_eq_iterate, Function.iterate_succ_apply']

theorem byte_rotBytes (w : Word) (k : Nat) (r : Fin 4) :
    byte (rotBytes w k) r.val = byte w ((r.val + k) % 4) := by
  induction k generalizing r with
  | zero => rw [Nat.add_zero, Nat.mod_eq_of_lt r.isLt]; rfl
  | succ k ih =>
    rw [rotBytes_succ, byte_rotWord]
    have h := ih ⟨(r.val + 1) % 4, Nat.mod_lt _ (by decide)⟩
    rw [h, Nat.mod_add_mod, Nat.add_assoc, Nat.add_comm 1 k]

theorem byte_subWord (w : Word) (r : Fin 4) : byte (subWord w) r.val = sbox (byte w r.val) :=
  byte_pack (fun r => sbox (byte w r.val)) r

/-- Settles O55: each helper by its bytes, RotBytes by induction on the count. -/
theorem wordHelpersMoveBytes : Obligations.WordHelpersMoveBytes :=
  ⟨fun w => ⟨rfl, rotWord_eq_shifts w⟩, by decide, fun w k => ⟨rfl, rotBytes_succ w k⟩, byte_rotBytes,
    byte_subWord, by decide⟩

/-! ### MixColumn -/

theorem mul3_xor (a b : Byte) : mul3 (a ^^^ b) = mul3 a ^^^ mul3 b := by
  rw [mul3, xtime_xor, mul3, mul3]
  ac_rfl

theorem mixByte_xor (a b c d a' b' c' d' : Byte) :
    mixByte (a ^^^ a') (b ^^^ b') (c ^^^ c') (d ^^^ d') = mixByte a b c d ^^^ mixByte a' b' c' d' := by
  rw [mixByte, xtime_xor, mul3_xor, mixByte, mixByte]
  ac_rfl

theorem mixByte_self (a : Byte) : mixByte a a a a = a := by
  decide +revert

theorem pack_xor (a b c d a' b' c' d' : Byte) :
    pack (a ^^^ a') (b ^^^ b') (c ^^^ c') (d ^^^ d') = pack a b c d ^^^ pack a' b' c' d' :=
  word_ext (by simp) (by simp) (by simp) (by simp)

theorem mixColumn_xor (u v : Word) : mixColumn (u ^^^ v) = mixColumn u ^^^ mixColumn v := by
  simp only [mixColumn, byte_xor, mixByte_xor, pack_xor]

theorem mixColumn_pack (a b c d : Byte) :
    mixColumn (pack a b c d) = pack (mixByte a b c d) (mixByte b c d a) (mixByte c d a b) (mixByte d a b c) := by
  simp only [mixColumn, byte_pack_zero, byte_pack_one, byte_pack_two, byte_pack_three]

/-- Settles O56: both hold byte by byte, because xtime is linear. -/
theorem mixColumnIsLinear : Obligations.MixColumnIsLinear :=
  ⟨mixColumn_xor, fun a => by rw [mixColumn_pack, mixByte_self]⟩

/-! ### The lanes of a state -/

theorem block_ext_lanes {A B : Block} (h : ∀ r c : Fin 4, lane A r c = lane B r c) : A = B :=
  block_ext fun c => word_ext (h 0 c) (h 1 c) (h 2 c) (h 3 c)

theorem lane_subBytes (S : Block) (r c : Fin 4) : lane (subBytes S) r c = sbox (lane S r c) := by
  rw [lane, Fin.getElem_fin, subBytes_getElem]
  exact byte_subWord _ r

theorem shiftRows_column (S : Block) (c : Fin 4) :
    (shiftRows S)[c] = pack (lane S 0 c) (lane S 1 (c + 1)) (lane S 2 (c + 2)) (lane S 3 (c + 3)) := by
  simp [shiftRows, lane]

theorem lane_shiftRows (S : Block) (r c : Fin 4) : lane (shiftRows S) r c = lane S r (c + r) := by
  have h := byte_pack (fun r => lane S r (c + r)) r
  rwa [add_zero, ← shiftRows_column] at h

/-- The lane at row `r` and column `c` after MixColumns, from the column's lanes from row `r` down (R164). -/
theorem lane_mixColumns (S : Block) (r c : Fin 4) :
    lane (mixColumns S) r c = mixByte (lane S r c) (lane S (r + 1) c) (lane S (r + 2) c) (lane S (r + 3) c) := by
  rw [lane, Fin.getElem_fin, mixColumns_getElem]
  exact byte_pack (fun r => mixByte (lane S r c) (lane S (r + 1) c) (lane S (r + 2) c) (lane S (r + 3) c)) r

/-- Settles O57: lane by lane for the two transforms, word by word for the round key. -/
theorem roundTransformsCommuteAndCancel : Obligations.RoundTransformsCommuteAndCancel := by
  refine ⟨fun S => block_ext_lanes fun r c => ?_, fun W S n => block_ext fun c => ?_⟩
  · rw [lane_subBytes, lane_shiftRows, lane_shiftRows, lane_subBytes]
  · rw [Fin.getElem_fin, addRoundKey_getElem, addRoundKey_getElem, BitVec.xor_assoc, BitVec.xor_self, BitVec.xor_zero]
    rfl

/-! ### The commands on STATE -/

/-- Settles O28: the command's meaning, lane by lane. -/
theorem subBytesActsOnEveryLane : Obligations.SubBytesActsOnEveryLane :=
  fun s => ⟨{ s with state := subBytes s.state }, rfl, lane_subBytes s.state, rfl⟩

theorem execAll_cons {i : Instr} {s t : State} (h : exec i s = .next t) (is : List Instr) :
    execAll (i :: is) s = execAll is t := by
  rw [execAll, h]

theorem shiftRows_four (S : Block) : shiftRows (shiftRows (shiftRows (shiftRows S))) = S := by
  refine block_ext_lanes fun r c => ?_
  have hcolumn : c + r + r + r + r = c := by decide +revert
  rw [lane_shiftRows, lane_shiftRows, lane_shiftRows, lane_shiftRows, hcolumn]

/-- Settles O29: the command's meaning lane by lane; four rotations of a row by the same number of columns are
none. -/
theorem shiftRowsRotatesEachRow : Obligations.ShiftRowsRotatesEachRow := by
  refine ⟨fun s => ⟨{ s with state := shiftRows s.state }, rfl, lane_shiftRows s.state, rfl⟩, fun s => ?_⟩
  have hrun : execAll [.shiftRows, .shiftRows, .shiftRows, .shiftRows] s =
      some { s with state := shiftRows (shiftRows (shiftRows (shiftRows s.state))) } := rfl
  rw [hrun, shiftRows_four]

theorem gfMul_one (a : Byte) : gfMul a 1#8 = a := by
  rw [gfMul_comm]
  exact one_gfMul a

theorem gfMul_two (a : Byte) : gfMul a 2#8 = xtime a := by
  decide +revert

theorem gfMul_three (a : Byte) : gfMul a 3#8 = mul3 a := by
  decide +revert

/-- Settles O30: the products by 2, 3 and 1 are the terms of `mixByte`, which row `r` starts at lane `r`. -/
theorem mixColumnsMultipliesByTheMatrix : Obligations.MixColumnsMultipliesByTheMatrix := by
  refine fun s => ⟨{ s with state := mixColumns s.state }, rfl, fun r c => ?_, rfl⟩
  rw [lane_mixColumns]
  match r with
  | 0 => simp [mixMatrix, gfMul_one, gfMul_two, gfMul_three, mixByte]
  | 1 | 2 | 3 =>
    simp [mixMatrix, gfMul_one, gfMul_two, gfMul_three, mixByte]
    ac_rfl

/-- Round numbers 0..10 name their own round-key group (R93). -/
theorem roundGroup_ofNat_le (n : Fin 11) : roundGroup (BitVec.ofNat 4 n.val) = n := by
  decide +revert

theorem wf_addRoundKey_ofNat (n : Fin 11) : (Instr.addRoundKey (BitVec.ofNat 4 n.val)).wf = true := by
  decide +revert

theorem exec_addRoundKey_pass {n : BitVec 4} {s : State} (hw : (Instr.addRoundKey n).wf = true)
    (hs : s.schedValid = true) :
    exec (.addRoundKey n) s = .next { s with state := addRoundKey s.rk s.state (roundGroup n) } :=
  performChecked_pass ((checkInstr_none_iff _ s).2 ⟨nofun, hw, nofun, fun _ => hs⟩)

/-- Settles O27: the command passes its checks, and group `n` is the words from 4n on. -/
theorem addRoundKeyXorsGroup : Obligations.AddRoundKeyXorsGroup := by
  intro s n hs
  refine ⟨_, exec_addRoundKey_pass (wf_addRoundKey_ofNat n) hs, fun c => ?_, rfl⟩
  rw [roundGroup_ofNat_le]
  exact addRoundKey_getElem s.state s.rk n c.val c.isLt

end Sys2Proof.Machine

/-! PROOF. The key schedule word by word, and the cipher from its rounds (41_key_schedule.md;
43_cipher_control.md). -/

namespace Sys2Proof.Machine

/-! ### The key schedule -/

/-- Word `4g + j` of the schedule is word `j` of group `g` (R140). -/
theorem keyExpansion_group (k : Block) {m : Nat} (g j : Nat) (hm : m < 44) (hj : j < 4) (h : m = 4 * g + j) :
    (keyExpansion k)[m] = (keyGroup k g)[j] := by
  have hg : m / 4 = g := by omega
  have hj' : m % 4 = j := by omega
  simp only [keyExpansion_getElem, hg, hj']

section NextGroup
variable (rc : Byte) (g : Block)

theorem nextGroup_zero : (nextGroup rc g)[0] = g[0] ^^^ (subWord (rotWord g[3]) ^^^ zext32 rc) := rfl
theorem nextGroup_one : (nextGroup rc g)[1] = (nextGroup rc g)[0] ^^^ g[1] := rfl
theorem nextGroup_two : (nextGroup rc g)[2] = (nextGroup rc g)[1] ^^^ g[2] := rfl
theorem nextGroup_three : (nextGroup rc g)[3] = (nextGroup rc g)[2] ^^^ g[3] := rfl

end NextGroup

/-- The round constants of R126, by the group they enter. -/
theorem rcon_succ (i : Fin 10) :
    rcon (i.val + 1) = #v[(0x01 : Byte), 0x02, 0x04, 0x08, 0x10, 0x20, 0x40, 0x80, 0x1B, 0x36][i] := by
  match i with
  | 0 | 1 | 2 | 3 | 4 | 5 | 6 | 7 | 8 | 9 => rfl

/-- Settles O26: the words of two groups that follow each other, by the recurrence of `keyGroup`. -/
theorem expandKeyWritesTheSchedule : Obligations.ExpandKeyWritesTheSchedule := by
  refine fun s => ⟨keyExpansion s.key, rfl, rfl, fun j => ?first, fun i => ?later⟩
  case first => exact keyExpansion_group s.key 0 j.val (by omega) j.isLt (Nat.zero_add _).symm
  case later =>
    have hnow (m j : Nat) (hm : m < 44) (hj : j < 4) (h : m = 4 * i.val + j) :
        (keyExpansion s.key)[m] = (keyGroup s.key i.val)[j] :=
      keyExpansion_group s.key i.val j hm hj h
    have hnext (m j : Nat) (hm : m < 44) (hj : j < 4) (h : m = 4 * i.val + 4 + j) :
        (keyExpansion s.key)[m] = (nextGroup (rcon (i.val + 1)) (keyGroup s.key i.val))[j] :=
      keyExpansion_group s.key (i.val + 1) j hm hj h
    rw [hnow (4 * i.val) 0 _ (by decide) rfl, hnow (4 * i.val + 1) 1 _ (by decide) rfl,
      hnow (4 * i.val + 2) 2 _ (by decide) rfl, hnow (4 * i.val + 3) 3 _ (by decide) rfl,
      hnext (4 * i.val + 4) 0 _ (by decide) rfl, hnext (4 * i.val + 5) 1 _ (by decide) rfl,
      hnext (4 * i.val + 6) 2 _ (by decide) rfl, hnext (4 * i.val + 7) 3 _ (by decide) rfl, ← rcon_succ i]
    exact ⟨nextGroup_zero _ _, nextGroup_one _ _, nextGroup_two _ _, nextGroup_three _ _⟩

/-! ### The cipher and its rounds -/

theorem exec_encrypt (s : State) : exec .encrypt s = .next { s with
    rk := keyExpansion s.key, schedValid := true, state := (cipher s.key s.din).1,
    dout := (cipher s.key s.din).1 } := rfl

/-- Settles O33: the command's meaning, and the known answers by evaluation. -/
theorem encryptWritesTheCipherOfDin : Obligations.EncryptWritesTheCipherOfDin :=
  ⟨exec_encrypt, by decide +kernel, by decide +kernel, by decide +kernel⟩

theorem exec_round_pass {n : BitVec 4} {s : State} (hw : (Instr.round n).wf = true) (hs : s.schedValid = true) :
    exec (.round n) s = .next { s with state := middleRound s.rk s.state (roundGroup n) } :=
  performChecked_pass ((checkInstr_none_iff _ s).2 ⟨nofun, hw, nofun, fun _ => hs⟩)

theorem exec_finalRound_pass {s : State} (hs : s.schedValid = true) :
    exec .finalRound s = .next { s with state := lastRound s.rk s.state } :=
  performChecked_pass ((checkInstr_none_iff _ s).2 ⟨nofun, rfl, nofun, fun _ => hs⟩)

theorem wf_round_ofNat {n : Fin 10} (hn : n ≠ 0) : (Instr.round (BitVec.ofNat 4 n.val)).wf = true := by
  revert n; decide

theorem wf_addRoundKey_of_round {n : BitVec 4} (hw : (Instr.round n).wf = true) : (Instr.addRoundKey n).wf = true := by
  revert n; decide

/-- One round, step by step (R195, R200). -/
theorem execAll_round {n : BitVec 4} {s : State} (hw : (Instr.round n).wf = true) (hs : s.schedValid = true) :
    execAll [.subBytes, .shiftRows, .mixColumns, .addRoundKey n] s =
      some { s with state := middleRound s.rk s.state (roundGroup n) } :=
  execAll_cons (s := { s with state := mixColumns (shiftRows (subBytes s.state)) })
    (exec_addRoundKey_pass (wf_addRoundKey_of_round hw) hs) []

/-- The final round, step by step (R196, R200). -/
theorem execAll_finalRound {s : State} (hs : s.schedValid = true) :
    execAll [.subBytes, .shiftRows, .addRoundKey 10] s = some { s with state := lastRound s.rk s.state } :=
  execAll_cons (s := { s with state := shiftRows (subBytes s.state) }) (exec_addRoundKey_pass rfl hs) []

/-- Round commands one after the other are the rounds one after the other. -/
theorem execAll_rounds (ns : List (Fin 11)) (hns : ∀ n ∈ ns, (Instr.round (BitVec.ofNat 4 n.val)).wf = true)
    (rest : List Instr) (s : State) (hs : s.schedValid = true) :
    execAll (ns.map (fun n => .round (BitVec.ofNat 4 n.val)) ++ rest) s =
      execAll rest { s with state := ns.foldl (middleRound s.rk) s.state } := by
  induction ns generalizing s with
  | nil => rfl
  | cons n ns ih =>
    obtain ⟨hn, hrest⟩ := List.forall_mem_cons.1 hns
    have h := exec_round_pass hn hs
    rw [roundGroup_ofNat_le] at h
    exact (execAll_cons h _).trans (ih hrest _ hs)

/-- From the first round key to the last round, for any schedule that is valid (R190). -/
theorem execAll_cipherRounds (rest : List Instr) (s : State) (hs : s.schedValid = true) :
    execAll (.addRoundKey 0 ::
        (middleRounds.map (fun n => .round (BitVec.ofNat 4 n.val)) ++ .finalRound :: rest)) s =
      execAll rest { s with state := cipherRounds (middleRound s.rk) s.rk s.state } := by
  have hkey : exec (.addRoundKey 0) s = .next { s with state := addRoundKey s.rk s.state 0 } :=
    exec_addRoundKey_pass rfl hs
  have hlast := exec_finalRound_pass
    (s := { s with state := middleRounds.foldl (middleRound s.rk) (addRoundKey s.rk s.state 0) }) hs
  rw [execAll_cons hkey, execAll_rounds middleRounds (by decide) _ { s with state := addRoundKey s.rk s.state 0 } hs,
    execAll_cons hlast, cipherRounds]

theorem execAll_encrypt (s : State) :
    execAll [.expandKey, .loadBlock, .addRoundKey 0, .round 1, .round 2, .round 3, .round 4, .round 5,
        .round 6, .round 7, .round 8, .round 9, .finalRound, .storeBlock] s =
      some { s with
        rk := keyExpansion s.key, schedValid := true, state := (cipher s.key s.din).1,
        dout := (cipher s.key s.din).1 } :=
  execAll_cipherRounds [.storeBlock] { s with rk := keyExpansion s.key, schedValid := true, state := s.din } rfl

/-- Settles O34: each command and its sequence end in the same named state. -/
theorem stepwiseCommandsComposeToRoundAndEncrypt : Obligations.StepwiseCommandsComposeToRoundAndEncrypt :=
  ⟨fun _ _ hn hs => ⟨_, exec_round_pass (wf_round_ofNat hn) hs, execAll_round (wf_round_ofNat hn) hs, rfl⟩,
    fun _ hs => ⟨_, exec_finalRound_pass hs, execAll_finalRound hs, rfl⟩,
    fun s => ⟨_, exec_encrypt s, execAll_encrypt s, rfl⟩⟩

end Sys2Proof.Machine

/-! PROOF. The fused tables, and the table path as the rounds it stands for (44_table_accelerator.md). -/

namespace Sys2Proof.Machine

/-! ### The fused tables -/

theorem mul3_zero : mul3 0 = 0 := by decide

section Rows
variable (e : Byte)

theorem mixByte_first : mixByte e 0 0 0 = xtime e := by rw [mixByte, mul3_zero]; simp
theorem mixByte_second : mixByte 0 e 0 0 = mul3 e := by rw [mixByte, xtime_zero]; simp
theorem mixByte_third : mixByte 0 0 e 0 = e := by rw [mixByte, xtime_zero, mul3_zero]; simp
theorem mixByte_fourth : mixByte 0 0 0 e = e := by rw [mixByte, xtime_zero, mul3_zero]; simp

/-- The mixed column of one byte, at each row: one matrix column of R163 times the byte. -/
theorem mixColumn_row0 : mixColumn (pack e 0 0 0) = pack (xtime e) e e (mul3 e) := by
  rw [mixColumn_pack, mixByte_first, mixByte_second, mixByte_third, mixByte_fourth]
theorem mixColumn_row1 : mixColumn (pack 0 e 0 0) = pack (mul3 e) (xtime e) e e := by
  rw [mixColumn_pack, mixByte_first, mixByte_second, mixByte_third, mixByte_fourth]
theorem mixColumn_row2 : mixColumn (pack 0 0 e 0) = pack e (mul3 e) (xtime e) e := by
  rw [mixColumn_pack, mixByte_first, mixByte_second, mixByte_third, mixByte_fourth]
theorem mixColumn_row3 : mixColumn (pack 0 0 0 e) = pack e e (mul3 e) (xtime e) := by
  rw [mixColumn_pack, mixByte_first, mixByte_second, mixByte_third, mixByte_fourth]

end Rows

section Rotations
variable (b0 b1 b2 b3 : Byte)

theorem rotBytes_pack_one : rotBytes (pack b0 b1 b2 b3) 1 = pack b1 b2 b3 b0 :=
  rotWord_pack b0 b1 b2 b3
theorem rotBytes_pack_two : rotBytes (pack b0 b1 b2 b3) 2 = pack b2 b3 b0 b1 := by
  rw [rotBytes_succ, rotBytes_pack_one, rotWord_pack]
theorem rotBytes_pack_three : rotBytes (pack b0 b1 b2 b3) 3 = pack b3 b0 b1 b2 := by
  rw [rotBytes_succ, rotBytes_pack_two, rotWord_pack]

end Rotations

section Entries
variable (i : Fin 256)

theorem t0Entry_eq (a : Byte) : t0Entry a = pack (xtime (sbox a)) (sbox a) (sbox a) (mul3 (sbox a)) :=
  mixColumn_row0 (sbox a)

/-- Entry `i` of table `k` is the mixed column with the S-box entry at row `k` (R220, R221). -/
theorem genT0_entry : genT0[i] = mixColumn (pack (sbox (BitVec.ofFin i)) 0 0 0) :=
  genT0_getElem i.val i.isLt
theorem genT1_entry : genT1[i] = mixColumn (pack 0 (sbox (BitVec.ofFin i)) 0 0) := by
  rw [Fin.getElem_fin, genT1_getElem, t0Entry_eq, rotBytes_pack_three, mixColumn_row1]
theorem genT2_entry : genT2[i] = mixColumn (pack 0 0 (sbox (BitVec.ofFin i)) 0) := by
  rw [Fin.getElem_fin, genT2_getElem, t0Entry_eq, rotBytes_pack_two, mixColumn_row2]
theorem genT3_entry : genT3[i] = mixColumn (pack 0 0 0 (sbox (BitVec.ofFin i))) := by
  rw [Fin.getElem_fin, genT3_getElem, t0Entry_eq, rotBytes_pack_one, mixColumn_row3]

end Entries

theorem exec_genTables_pass {s : State} (hcap : s.capTables = true) :
    exec .genTables s =
      .next { s with t0 := genT0, t1 := genT1, t2 := genT2, t3 := genT3, tablesValid := true } := by
  have h := performChecked_pass (i := .genTables) (s := s)
    (t := { s with t0 := genT0, t1 := genT1, t2 := genT2, t3 := genT3, tablesValid := true })
    ((checkInstr_none_iff _ s).2 ⟨fun _ => hcap, rfl, nofun, nofun⟩)
  exact h

/-- Settles O35: each entry as a mixed column with one byte in it, whose rotations move the byte down a row. -/
theorem genTablesWritesTheFusedTables : Obligations.GenTablesWritesTheFusedTables := by
  refine ⟨fun s hcap => ⟨_, exec_genTables_pass hcap, rfl, fun i => ?entries⟩, ?first⟩
  case entries =>
    dsimp only
    rw [genT0_entry, genT1_entry, genT2_entry, genT3_entry, mixColumn_row0, mixColumn_row1, mixColumn_row2,
      mixColumn_row3, rotBytes_pack_one, rotBytes_pack_two, rotBytes_pack_three]
    exact ⟨rfl, rfl, rfl, rfl, rfl, rfl, rfl, rfl, rfl, rfl, rfl⟩
  case first =>
    rw [genT0_getElem, genT1_getElem, genT2_getElem, genT3_getElem]
    decide

/-! ### The table path -/

/-- A column is the sum of its four bytes, each at its row. -/
theorem pack_eq_xor (a b c d : Byte) :
    pack a b c d = pack a 0 0 0 ^^^ pack 0 b 0 0 ^^^ pack 0 0 c 0 ^^^ pack 0 0 0 d := by
  simp only [← pack_xor]
  simp

/-- The four lookups are the mixed column of their four S-box entries: MixColumn is linear (R223). -/
theorem lookups_eq_mixColumn (a b c d : Byte) :
    genT0[a.toFin] ^^^ genT1[b.toFin] ^^^ genT2[c.toFin] ^^^ genT3[d.toFin] =
      mixColumn (pack (sbox a) (sbox b) (sbox c) (sbox d)) := by
  rw [pack_eq_xor, mixColumn_xor, mixColumn_xor, mixColumn_xor]
  exact congrArg₂ _ (congrArg₂ _ (congrArg₂ _ (genT0_entry _) (genT1_entry _)) (genT2_entry _)) (genT3_entry _)

theorem middleRound_column (W : KeySchedule) (S : Block) (n : Fin 11) (c : Fin 4) :
    (middleRound W S n)[c] = mixColumn (shiftRows (subBytes S))[c] ^^^ W[4 * n.val + c.val] := by
  rw [middleRound, Fin.getElem_fin, addRoundKey_getElem, mixColumns_getElem, Fin.getElem_fin]

theorem tableRound_eq_middleRound {s : State} (h0 : s.t0 = genT0) (h1 : s.t1 = genT1) (h2 : s.t2 = genT2)
    (h3 : s.t3 = genT3) : tableRound s = middleRound := by
  funext W S n
  refine block_ext fun c => ?_
  rw [tableRound_getElem, h0, h1, h2, h3, lookups_eq_mixColumn, middleRound_column, shiftRows_column, lane_subBytes,
    lane_subBytes, lane_subBytes, lane_subBytes]

theorem State.Inv.tableRound_eq {s : State} (h : s.Inv) (ht : s.tablesValid = true) : tableRound s = middleRound := by
  obtain ⟨h0, h1, h2, h3⟩ := h.tables_generated ht
  exact tableRound_eq_middleRound h0 h1 h2 h3

/-- Settles O37: column by column, then both commands past their checks. -/
theorem tableRoundIsExact : Obligations.TableRoundIsExact := by
  refine ⟨fun s h0 h1 h2 h3 W S n => ?blocks, fun s n hn h ht hs => ?commands⟩
  case blocks => rw [tableRound_eq_middleRound h0 h1 h2 h3, middleRound]
  case commands =>
    refine ⟨_, exec_tRound_pass (wf_tRound_ofNat hn) (h.tables_present ht) ht hs, ?_⟩
    rw [h.tableRound_eq ht]
    exact exec_round_pass (wf_round_ofNat hn) hs

theorem exec_encryptT_pass {s : State} (hcap : s.capTables = true) (ht : s.tablesValid = true) :
    exec .encryptT s = .next { s with
      rk := keyExpansion s.key, schedValid := true,
      state := tableCipher s (keyExpansion s.key), dout := tableCipher s (keyExpansion s.key) } := by
  have hready : s.tablesReady = true := by rw [State.tablesReady, hcap, ht, Bool.and_self]
  have h := performChecked_pass (t := { s with
      rk := keyExpansion s.key, schedValid := true,
      state := tableCipher s (keyExpansion s.key), dout := tableCipher s (keyExpansion s.key) })
    (checkInstr_encryptT hready)
  exact h

theorem State.Inv.tableCipher_eq {s : State} (h : s.Inv) (ht : s.tablesValid = true) :
    tableCipher s (keyExpansion s.key) = (cipher s.key s.din).1 := by
  rw [tableCipher, h.tableRound_eq ht, cipher]

/-- Settles O38: the command passes its checks, and in a sound state its rounds are the rounds of ENCRYPT. -/
theorem encryptTGivesWhatEncryptGives : Obligations.EncryptTGivesWhatEncryptGives := by
  refine ⟨fun s hcap ht => ⟨_, exec_encryptT_pass hcap ht, rfl⟩, fun s h ht => ?_⟩
  refine ⟨_, exec_encryptT_pass (h.tables_present ht) ht, ?_⟩
  rw [h.tableCipher_eq ht]
  exact exec_encrypt s

end Sys2Proof.Machine
